-- ==== Sys2Proof/Word.lean ====
section
/-!
DEFINITION. The widths of the core's values (spec/00_scope.md R7, R8): unsigned words, bytes, the
command word and the sequencer word. Arithmetic on them is BitVec's, which wraps (R8, R83).
-/

namespace Sys2Proof

/-- A word, 32 bits unsigned (R7, R8). -/
abbrev Word := BitVec 32

/-- A byte, 8 bits unsigned (R8). -/
abbrev Byte := BitVec 8

/-- A command word `cmd[11:0]` (R7, R59). -/
abbrev CmdWord := BitVec 12

/-- A sequencer word `USEQ = PHASE ‖ T` (R35, R60). -/
abbrev UseqWord := BitVec 10

end Sys2Proof
end

