-- ==== Sys2Proof/Config.lean ====
section
/-!
DEFINITION. What the spec leaves free. spec/10_state.md R42 and R43: after a reset step every register
but PHASE, CAUSE and FCMD is unspecified, and a model may fill it with an arbitrary value drawn at
reset. Each such register has a constant WITHOUT A BODY here, applied to the number of reset steps
taken before (log 5): nothing can be proved of its value. And spec/42_padding.md R90 with
spec/91_not_in_source.md N8: a message of 2^64 bits or more has no padding in the source (log 19). And
spec/41_block.md R85: there is no byte beyond the end of a padded message (log 20).
-/

namespace Sys2Proof.Config

/-- What `H` holds after the `n`-th reset step (R42, log 5). -/
opaque resetH (n : Nat) : Vector Word 8

/-- What `V` holds after the `n`-th reset step (R42, log 5). -/
opaque resetV (n : Nat) : Vector Word 8

/-- What `W` holds after the `n`-th reset step (R42, log 5). -/
opaque resetW (n : Nat) : Vector Word 64

/-- What `BUF` holds after the `n`-th reset step (R42, log 5). -/
opaque resetBuf (n : Nat) : Vector Byte 64

/-- What `FILL` holds after the `n`-th reset step (R42, log 5). -/
opaque resetFill (n : Nat) : BitVec 7

/-- What `LEN` holds after the `n`-th reset step (R42, log 5). -/
opaque resetLen (n : Nat) : BitVec 64

/-- What `T` holds after the `n`-th reset step (R42, log 5). -/
opaque resetT (n : Nat) : BitVec 6

/-- What `PADI` holds after the `n`-th reset step (R42, log 5). -/
opaque resetPadi (n : Nat) : BitVec 7

/-- What `FIN` holds after the `n`-th reset step (R42, log 5). -/
opaque resetFin (n : Nat) : Bool

/-- What the function Pad gives for a message of 2^64 bits or more, whose length has no 64-bit encoding
(R90, N8, log 19). The core never holds such a message (R117). -/
opaque overlongPad (m : List Byte) : List Byte

/-- What `blockAt` reads at the byte position `i` beyond the end of a padded message (R85, log 20). -/
opaque beyondPadded (i : Nat) : Byte

end Sys2Proof.Config
end

