-- ==== Sys2Proof/Syntax.lean ====
section
/-!
DEFINITION. The instructions: one constructor per row of spec/opcode_table.json. The first five are the
host's commands (spec/30_encoding.md R62), the last six the sequencer's micro-operations (R63).
-/

namespace Sys2Proof

/-- The eleven rows of the opcode table, with the operands of R61. -/
inductive Instr where
  /-- NOP, R115. -/
  | nop
  /-- START, R116. -/
  | start
  /-- DATA b, R117: the message byte `b = c[7:0]`. -/
  | data (b : Byte)
  /-- FINISH, R118. -/
  | finish
  /-- RDHEX i, R128: the character index `i = c[5:0]`. -/
  | rdhex (i : BitVec 6)
  /-- PADB, R96. -/
  | padb
  /-- LDW, R88. -/
  | ldw
  /-- XPD t, R100: the schedule index `t = USEQ[5:0]`, 16 to 63. -/
  | xpd (t : BitVec 6)
  /-- LDV, R106. -/
  | ldv
  /-- RND t, R107: the round index `t = USEQ[5:0]`, 0 to 63. -/
  | rnd (t : BitVec 6)
  /-- FLD, R108. -/
  | fld
  deriving DecidableEq, Repr

end Sys2Proof
end

