-- ==== Sys2Proof/WellFormed.lean ====
section
/-!
DEFINITION. Which instructions have an encoding in the tables of spec/30_encoding.md R62 and R63. The
operand types of `Instr` make every command well formed; the one check left is XPD's range of `t`.
-/

namespace Sys2Proof

/-- XPD has no row for `t < 16` (R63, R65); every other operand value of every row is legal. -/
def Instr.wellFormed : Instr → Bool
  | .nop => true
  | .start => true
  | .data _ => true
  | .finish => true
  | .rdhex _ => true
  | .padb => true
  | .ldw => true
  | .xpd t => decide (16 ≤ t.toNat)
  | .ldv => true
  | .rnd _ => true
  | .fld => true

/-- `wellFormed` as a proposition. -/
abbrev WellFormed (i : Instr) : Prop := i.wellFormed = true

end Sys2Proof
end

