-- ==== Sys2Proof/Decode.lean ====
section
/-!
DEFINITION. Decoding of the two formats (spec/30_encoding.md): the 12-bit command word (R59, R62, R66)
and the 10-bit sequencer word (R60, R63). Decoding is total and rejects by name. After it the encoder,
from the same tables, and the reading of a word numbered as spec/opcode_table.json numbers it.
-/

namespace Sys2Proof

/-- A word of one of the two formats (R58). -/
inductive Encoding where
  /-- Format CMD: what the host presents on `cmd[11:0]`. -/
  | cmd (c : CmdWord)
  /-- Format USEQ: `PHASE ‖ T`. -/
  | useq (u : UseqWord)
  deriving DecidableEq, Repr

/-- Why a word is no instruction. -/
inductive Reject where
  /-- A reserved command word (R64); accepting it raises IllegalCommand. -/
  | reservedCommand
  /-- A sequencer word of a ready phase: the sequencer performs no micro-operation (R63). -/
  | readyPhase
  /-- A sequencer word no rule produces (R65). -/
  | unreachableUseq
  deriving DecidableEq, Repr

/-- What decoding answers. -/
inductive Decoded where
  | instr (i : Instr)
  | rejected (r : Reject)
  deriving DecidableEq, Repr

/-- The opcode field `op = c[11:8]` (R59). -/
def opField (c : CmdWord) : BitVec 4 := c.extractLsb' 8 4

/-- The argument field `arg = c[7:0]` (R59). -/
def argField (c : CmdWord) : Byte := c.extractLsb' 0 8

/-- The field `PHASE = USEQ[9:6]` (R60). -/
def phaseField (u : UseqWord) : BitVec 4 := u.extractLsb' 6 4

/-- The field `T = USEQ[5:0]` (R60). -/
def tField (u : UseqWord) : BitVec 6 := u.extractLsb' 0 6

/-- `decode(c)` of R66. -/
def decodeCmd (c : CmdWord) : Decoded :=
  let op := opField c
  let arg := argField c
  if op = 0 ∧ arg = 0 then .instr .nop
  else if op = 1 ∧ arg = 0 then .instr .start
  else if op = 2 then .instr (.data arg)
  else if op = 3 ∧ arg = 0 then .instr .finish
  else if op = 4 ∧ arg.extractLsb' 6 2 = 0 then .instr (.rdhex (arg.extractLsb' 0 6))
  else .rejected .reservedCommand

/-- The micro-operation a sequencer word selects (R63): none in a ready phase (`PHASE` 0, 1, 8, 9), and
no meaning for the words of R65. -/
def decodeUseq (u : UseqWord) : Decoded :=
  let p := phaseField u
  let t := tField u
  if p = 0 ∨ p = 1 ∨ p = 8 ∨ p = 9 then .rejected .readyPhase
  else if p = 2 ∧ t = 0 then .instr .padb
  else if p = 3 ∧ t = 0 then .instr .ldw
  else if p = 4 ∧ 16 ≤ t.toNat then .instr (.xpd t)
  else if p = 5 ∧ t = 0 then .instr .ldv
  else if p = 6 then .instr (.rnd t)
  else if p = 7 ∧ t = 0 then .instr .fld
  else .rejected .unreachableUseq

/-- Decoding of either format. -/
def decode : Encoding → Decoded
  | .cmd c => decodeCmd c
  | .useq u => decodeUseq u

/-- The word of an instruction, from the tables of R62 and R63: R66's `NOP ↦ 0x000`, `START ↦ 0x100`,
`DATA(b) ↦ 0x200 + b`, `FINISH ↦ 0x300`, `RDHEX(i) ↦ 0x400 + i`, and the match values of R63 with `t`
in bits 5 to 0. -/
def encode : Instr → Encoding
  | .nop => .cmd 0x000
  | .start => .cmd 0x100
  | .data b => .cmd (0x200 + b.setWidth 12)
  | .finish => .cmd 0x300
  | .rdhex i => .cmd (0x400 + i.setWidth 12)
  | .padb => .useq 0x080
  | .ldw => .useq 0x0C0
  | .xpd t => .useq (0x100 + t.setWidth 10)
  | .ldv => .useq 0x140
  | .rnd t => .useq (0x180 + t.setWidth 10)
  | .fld => .useq 0x1C0

/-- The bits `w` of an opcode-table row of `nbits` bits, as a word of its format. A row of format CMD
has 12 bits and one of format USEQ has 10 (R58). Where `nbits` is neither (the width rounded up to
whole bytes is 16 for both formats), the word is a command word if it decodes as a command, else a
sequencer word if it selects a micro-operation, else a (reserved) command word. -/
def tableEncoding (nbits w : Nat) : Option Encoding :=
  if nbits = 10 then
    if w < 2 ^ 10 then some (.useq (BitVec.ofNat 10 w)) else none
  else if nbits = 12 then
    if w < 2 ^ 12 then some (.cmd (BitVec.ofNat 12 w)) else none
  else if w < 2 ^ 12 then
    match decodeCmd (BitVec.ofNat 12 w) with
    | .instr _ => some (.cmd (BitVec.ofNat 12 w))
    | .rejected _ =>
      if w < 2 ^ 10 then
        match decodeUseq (BitVec.ofNat 10 w) with
        | .instr _ => some (.useq (BitVec.ofNat 10 w))
        | .rejected _ => some (.cmd (BitVec.ofNat 12 w))
      else some (.cmd (BitVec.ofNat 12 w))
  else none

/-- The instruction the decoder reads from a word numbered as spec/opcode_table.json numbers it. -/
def decodeTableWord (nbits w : Nat) : Option Instr :=
  match tableEncoding nbits w with
  | none => none
  | some e =>
    match decode e with
    | .instr i => some i
    | .rejected _ => none

end Sys2Proof
end

