-- ==== Sys2Proof/Machine/State.lean ====
section
/-!
DEFINITION. The state of one core: the registers of spec/10_state.md R17, what the host drives on the
input pins, and the response of the last command step. Plain data. Then the reasons a step can stop,
and the state after reset (R42).
-/

namespace Sys2Proof.Machine

/-- The values of `PHASE` (R28). Codes 10 to 15 do not exist here (log 8). -/
inductive Phase where
  | idle
  | absorb
  | pad
  | load
  | expand
  | initv
  | round
  | fold
  | done
  | fault
  deriving DecidableEq, Repr

/-- The values of `CAUSE` (R29, R131). Codes 4 to 7 do not exist here (log 8). -/
inductive Cause where
  /-- Code 0: no fault since reset. -/
  | noFault
  /-- Code 1: the word is reserved. -/
  | illegalCommand
  /-- Code 2: the command is not legal in the phase. -/
  | wrongPhase
  /-- Code 3: one more byte would need a bit length of 2^64. -/
  | lengthOverflow
  deriving DecidableEq, Repr

/-- What the host drives on the input pins at one step (R32). -/
structure Pins where
  /-- `rst` -/
  rst : Bool
  /-- `cmd_valid` -/
  cmdValid : Bool
  /-- `cmd[11:0]` -/
  cmd : CmdWord
  deriving DecidableEq, Repr

/-- The registers of R17, then `rsp` and the model's own fields (INVENTORY.md, '## State'). -/
structure State where
  /-- `H[0..7]`, the running hash state (R18). -/
  h : Vector Word 8
  /-- `V[0..7]`, the working registers a..h (R19). -/
  v : Vector Word 8
  /-- `W[0..63]`, the message schedule (R20). -/
  w : Vector Word 64
  /-- `BUF[0..63]`, the block buffer (R21). -/
  buf : Vector Byte 64
  /-- `FILL` (R23). -/
  fill : BitVec 7
  /-- `LEN` (R24). -/
  len : BitVec 64
  /-- `T` (R25). -/
  t : BitVec 6
  /-- `PADI` (R26). -/
  padi : BitVec 7
  /-- `FIN` (R27). -/
  fin : Bool
  /-- `PHASE` (R28). -/
  phase : Phase
  /-- `CAUSE` (R29). -/
  cause : Cause
  /-- `FCMD` (R29). -/
  fcmd : CmdWord
  /-- `rsp[7:0]`: the response of the last step if it accepted a command, else none (R32, R148; log 3). -/
  rsp : Option Byte
  /-- What the host drives on the input pins: the head now, quiet pins when empty (log 1, log 2). -/
  host : List Pins
  /-- How many reset steps the run has taken: selects the next free values (log 5, log 6). -/
  resets : Nat
  deriving DecidableEq, Repr

/-- The model's stops that stand for an access the spec's preconditions exclude. Neither is the spec's
phase FAULT, which is a next state. -/
inductive Fault where
  /-- Raised by DATA and PADB when `FILL ≥ 64`: R86's precondition `FILL ≤ 63` fails and `BUF[FILL]`
  does not exist. Safe: no run from reset gets there (log 10). -/
  | bufOverrun
  /-- Raised by PADB when `PADI ≥ PADN`: R95 defines no such pad byte. Safe: no run from reset gets
  there (log 10). -/
  | padByteOutOfRange
  deriving DecidableEq, Repr

/-- Why a step or an instruction has no meaning in a state. -/
inductive Refusal where
  /-- Raised by an arm of `exec` for an instruction that has no meaning yet. Safe. No arm raises it. -/
  | notModelled (mnemonic : String)
  /-- Raised by a micro-operation's meaning in a state whose sequencer word does not select it (R63:
  "performed when PHASE = ..."). Safe: `step` never asks for it (log 9). -/
  | notSelected
  /-- Raised by `step` in a busy phase whose sequencer word no rule produces (R65: "refuse a start state
  that holds one"). Safe (log 9). -/
  | unreachableUseq
  deriving DecidableEq, Repr

/-- The machine right after reset (R42): `PHASE` IDLE, `CAUSE` 0, `FCMD` 0, `cmd_ready` 1. The spec gives
`H`, `V`, `W`, `BUF`, `FILL`, `LEN`, `T`, `PADI`, `FIN` no value; they are 0 here by DESIGN CHOICE, which is
unsafe and on which no statement rests (log 4). The host drives nothing (log 1). -/
def State.reset : State where
  h := Vector.replicate 8 0
  v := Vector.replicate 8 0
  w := Vector.replicate 64 0
  buf := Vector.replicate 64 0
  fill := 0
  len := 0
  t := 0
  padi := 0
  fin := false
  phase := .idle
  cause := .noFault
  fcmd := 0
  rsp := none
  host := []
  resets := 0

end Sys2Proof.Machine
end

