-- ==== Sys2Proof/Machine/Flags.lean ====
section
/-!
DEFINITION. The core has no arithmetic flag (spec/10_state.md R36). What this file computes are the codes
of PHASE and CAUSE, the sequencer word, and the derived signals `cmd_ready` and `STATUS` with its bits
READY, VALID and ERR (R28 to R31, R35), and the input pins as they stand (R32).
-/

namespace Sys2Proof.Machine

/-- The code of a phase (R28). -/
def Phase.code : Phase → BitVec 4
  | .idle => 0
  | .absorb => 1
  | .pad => 2
  | .load => 3
  | .expand => 4
  | .initv => 5
  | .round => 6
  | .fold => 7
  | .done => 8
  | .fault => 9

/-- The phase a code names; none for 10 to 15 (R28). -/
def phaseOfCode (c : BitVec 4) : Option Phase :=
  [Phase.idle, .absorb, .pad, .load, .expand, .initv, .round, .fold, .done, .fault].find? (·.code = c)

/-- The code of a cause (R131). -/
def Cause.code : Cause → BitVec 3
  | .noFault => 0
  | .illegalCommand => 1
  | .wrongPhase => 2
  | .lengthOverflow => 3

/-- Whether a phase is a ready phase (R16, R30). -/
def Phase.ready : Phase → Bool
  | .idle => true
  | .absorb => true
  | .pad => false
  | .load => false
  | .expand => false
  | .initv => false
  | .round => false
  | .fold => false
  | .done => true
  | .fault => true

/-- `cmd_ready` (R30). -/
def State.cmdReady (s : State) : Bool := s.phase.ready

/-- `STATUS` (R31): bit 7 is 0, then ERR, VALID, READY, and PHASE in bits 3 to 0. -/
def State.status (s : State) : BitVec 8 :=
  0#1 ++ BitVec.ofBool (decide (s.phase = .fault)) ++ BitVec.ofBool (decide (s.phase = .done))
    ++ BitVec.ofBool s.cmdReady ++ s.phase.code

/-- The output pins `cause[2:0]` (R32). -/
def State.causePins (s : State) : BitVec 3 := s.cause.code

/-- The output pins `fcmd[11:0]` (R32). -/
def State.fcmdPins (s : State) : CmdWord := s.fcmd

/-- `USEQ = PHASE ‖ T` (R35, R60). -/
def State.useq (s : State) : UseqWord := s.phase.code ++ s.t

/-- What the host drives when it has nothing to say: no reset, no command (log 1). -/
def quietPins : Pins := { rst := false, cmdValid := false, cmd := 0 }

/-- The input pins as the host drives them at this step (R32, log 1). -/
def State.pins (s : State) : Pins := s.host.headD quietPins

/-- Whether the command on the pins is held at this step (R16, R113): presented, no reset, not ready. -/
def State.holds (s : State) : Bool := s.pins.cmdValid && !s.pins.rst && !s.cmdReady

end Sys2Proof.Machine
end

