-- ==== Sys2Proof/Machine/BitOps.lean ====
section
/-!
DEFINITION. The combinational primitives of spec/40_bitops.md: rotates, the two logical shifts, the
byte splitter and the six round functions. Pure and total (R69); none has an encoding.
-/

namespace Sys2Proof.Machine

/-- The widths of the general rotates and of SPLIT (R70): no other width has one (93 U11, log 14). -/
abbrev PrimitiveWidth (w : Nat) : Prop := w = 16 ∨ w = 32 ∨ w = 64

/-- ROTR (R71), D0's `circularRightShift`, at the widths of R70 only. -/
def rotr {w : Nat} (x : BitVec w) (n : Nat) (_ok : PrimitiveWidth w := by decide) : BitVec w :=
  let s := n % w
  if s = 0 then x else (x >>> s) ||| (x <<< (w - s))

/-- ROTL (R72), D0's `circularLeftShift`, at the widths of R70 only. No unit of the core uses it (R82). -/
def rotl {w : Nat} (x : BitVec w) (n : Nat) (_ok : PrimitiveWidth w := by decide) : BitVec w :=
  let s := n % w
  if s = 0 then x else (x <<< s) ||| (x >>> (w - s))

/-- SHR3 (R74): logical right shift by 3. -/
def shr3 (x : Word) : Word := x >>> 3

/-- SHR10 (R74): logical right shift by 10. -/
def shr10 (x : Word) : Word := x >>> 10

/-- SPLIT (R75), D0's `splitToBytes`: byte `j` is `x[w−1−8j : w−8−8j]`, most significant first. At the
widths of R70 only. -/
def split {w : Nat} (x : BitVec w) (_ok : PrimitiveWidth w := by decide) : List Byte :=
  (List.range (w / 8)).map fun j => (x >>> (w - 8 - 8 * j)).setWidth 8

/-- CH (R76). -/
def ch (x y z : Word) : Word := (x &&& y) ^^^ (~~~x &&& z)

/-- MAJ (R77). -/
def maj (x y z : Word) : Word := (x &&& y) ^^^ (x &&& z) ^^^ (y &&& z)

/-- BSIG0 (R78). -/
def bsig0 (x : Word) : Word := rotr x 2 ^^^ rotr x 13 ^^^ rotr x 22

/-- BSIG1 (R79). -/
def bsig1 (x : Word) : Word := rotr x 6 ^^^ rotr x 11 ^^^ rotr x 25

/-- SSIG0 (R80). -/
def ssig0 (x : Word) : Word := rotr x 7 ^^^ rotr x 18 ^^^ shr3 x

/-- SSIG1 (R81). -/
def ssig1 (x : Word) : Word := rotr x 17 ^^^ rotr x 19 ^^^ shr10 x

end Sys2Proof.Machine
end

