-- ==== Sys2Proof/Machine/Operands.lean ====
section
/-!
DEFINITION. How a step reaches the elements of the internal arrays (spec/20_memory.md R44): the memory
primitives of `BUF` (spec/00_scope.md R11, big-endian by R45) and the elements of `W`, `K`, `H` and `V`
that an index selects. Every index is a counter register, a constant, or RDHEX's operand.
-/

namespace Sys2Proof.Machine

/-- Element `t` of a 64-word array (`W` or `K`), selected by the 6-bit index `t` (R44). -/
def wordAt (w : Vector Word 64) (t : BitVec 6) : Word := w[t.toNat]'t.isLt

/-- `X[t] <- x` on a 64-word array (R10). -/
def setWordAt (w : Vector Word 64) (t : BitVec 6) (x : Word) : Vector Word 64 := w.set t.toNat x t.isLt

/-- `MemRead(BUF, 4i, 4)` (R11): the big-endian word at byte index `4i`, the only word reads of `BUF`
(R47). -/
def memRead4 (b : Vector Byte 64) (i : Fin 16) : Word :=
  b[4 * i.val] ++ b[4 * i.val + 1] ++ b[4 * i.val + 2] ++ b[4 * i.val + 3]

/-- `MemWrite(BUF, a, 1, x)` (R11): `BUF[a] <- x`; none where `BUF[a]` does not exist. -/
def memWrite1 (b : Vector Byte 64) (a : BitVec 7) (x : Byte) : Option (Vector Byte 64) :=
  if ok : a.toNat < 64 then some (b.set a.toNat x ok) else none

/-- The nibble `(S[i div 8] >> (28 − 4·(i mod 8))) AND 0xF` of eight words (R124). -/
def nibbleAt (s : Vector Word 8) (i : BitVec 6) : BitVec 4 :=
  ((s[i.toNat / 8]'(by have := i.isLt; omega)) >>> (28 - 4 * (i.toNat % 8))).setWidth 4

end Sys2Proof.Machine
end

