-- ==== Sys2Proof/Machine/Functions.lean ====
section
/-!
DEFINITION. The spec's functions on values, which the meanings use or are claimed to compute: ToWords
(R87), the padding (R90, R94, R95), the schedule (R98), the compression (R104), the rendering (R124)
and the whole hash (R110).
-/

namespace Sys2Proof.Machine

/-- ToWords (R87): words 0 to 15 from the block, words 16 to 63 zero. Irreducible only so that the
elaborator does not unfold all 64 words when it compares states; `simp [toWords]` and `decide +kernel`
see through it. -/
@[irreducible] def toWords (b : Vector Byte 64) : Vector Word 64 :=
  Vector.ofFn fun i : Fin 64 => if ok : i.val < 16 then memRead4 b ⟨i.val, ok⟩ else 0

/-- `PADK = ((440 − (LEN mod 512)) mod 512) div 8` (R94), with the non-negative remainder of R8: 512 is
added before the natural-number subtraction. -/
def padK (len : BitVec 64) : Nat := ((440 + 512 - len.toNat % 512) % 512) / 8

/-- `PADN = PADK + 9` (R94). -/
def padN (len : BitVec 64) : Nat := padK len + 9

/-- `PadByte(j)` (R95); none for `j ≥ PADN`, which R95 does not define. -/
def padByte (len : BitVec 64) (j : Nat) : Option Byte :=
  if j = 0 then some 0x80
  else if j ≤ padK len then some 0x00
  else (split len)[j - padK len - 1]?

/-- The right side of the recurrence at `t` (R98, R100):
`W[t−16] + W[t−7] + SSIG0(W[t−15]) + SSIG1(W[t−2])`. Used for `16 ≤ t` only; what it gives
below, where the spec has no recurrence, is the model's choice (log 21). -/
def scheduleWord (w : Vector Word 64) (t : BitVec 6) : Word :=
  wordAt w (t - 16) + wordAt w (t - 7) + ssig0 (wordAt w (t - 15)) + ssig1 (wordAt w (t - 2))

/-- One step of the expansion: `W[t] <- ` the recurrence at `t` (R100). -/
def expandAt (w : Vector Word 64) (t : BitVec 6) : Vector Word 64 := setWordAt w t (scheduleWord w t)

/-- Expand (R98), in increasing `t` from 16 to 63 (R99). -/
def expand (x : Vector Word 64) : Vector Word 64 :=
  (List.range 48).foldl (fun w j => expandAt w (BitVec.ofNat 6 (16 + j))) x

/-- `T1` of a round (R107): `h + BSIG1(e) + CH(e, f, g) + K[t] + W[t]`. -/
def roundT1 (k wt : Word) (v : Vector Word 8) : Word := v[7] + bsig1 v[4] + ch v[4] v[5] v[6] + k + wt

/-- `T2` of a round (R107): `BSIG0(a) + MAJ(a, b, c)`. -/
def roundT2 (v : Vector Word 8) : Word := bsig0 v[0] + maj v[0] v[1] v[2]

/-- One compression round on the registers a..h (R105, R107): all eight from the values before. -/
def roundStep (k wt : Word) (v : Vector Word 8) : Vector Word 8 :=
  let t1 := roundT1 k wt v
  let t2 := roundT2 v
  #v[t1 + t2, v[0], v[1], v[2], v[3] + t1, v[4], v[5], v[6]]

/-- Round `t` with the schedule `w`: `K[t]` and `W[t]` (R105). -/
def roundAt (w : Vector Word 64) (v : Vector Word 8) (t : BitVec 6) : Vector Word 8 :=
  roundStep (wordAt romK t) (wordAt w t) v

/-- The registers a..h after round 63, from `s` before round 0 (R104). -/
def rounds (w : Vector Word 64) (s : Vector Word 8) : Vector Word 8 :=
  (List.range 64).foldl (fun v j => roundAt w v (BitVec.ofNat 6 j)) s

/-- The fold: word by word addition modulo 2^32 (R104, R108). -/
def addWords (s v : Vector Word 8) : Vector Word 8 := Vector.zipWith (· + ·) s v

/-- Compress (R104). -/
def compress (s : Vector Word 8) (w : Vector Word 64) : Vector Word 8 := addWords s (rounds w s)

/-- CompressBlock (R104): `Compress(S, Expand(ToWords(B)))`. -/
def compressBlock (s : Vector Word 8) (b : Vector Byte 64) : Vector Word 8 :=
  compress s (expand (toWords b))

/-- `HEX[i] = HEXLUT[nib(i)]` of eight words (R124, R127). -/
def hexChar (s : Vector Word 8) (i : BitVec 6) : Byte :=
  let n := nibbleAt s i
  hexLut[n.toNat]'n.isLt

/-- Render (R124), as 64 character codes. -/
def render (s : Vector Word 8) : List Byte :=
  (List.range 64).map fun i => hexChar s (BitVec.ofNat 6 i)

/-- The bit length `L = 8·n` of a message of `n` bytes (R90) as the 64-bit value of the length field.
The length of a message of 2^64 bits or more has none (N8): what this function gives there is used in
no other definition (log 19). -/
def bitLength (m : List Byte) : BitVec 64 := BitVec.ofNat 64 (8 * m.length)

/-- Pad (R90): `m ‖ [0x80] ‖ [0x00]^k ‖ SPLIT(L, 64)` for `L < 2^64`. R90 and N8 give longer messages no
padding; there the value is free, by the model's choice, and so is what `blockCount`, `finalState` and
`messageDigest` make of it (log 19). -/
def pad (m : List Byte) : List Byte :=
  if 8 * m.length < 2 ^ 64 then
    m ++ [0x80] ++ List.replicate (padK (bitLength m)) 0x00 ++ split (bitLength m)
  else Config.overlongPad m

/-- Block `q` of a padded message: the bytes `P[64q .. 64q + 63]` (R85). R85 gives only the blocks of the
message. That this function answers a block for every `q`, with a free value for each byte beyond the
end of `p`, is the model's choice (log 20). -/
def blockAt (p : List Byte) (q : Nat) : Vector Byte 64 :=
  Vector.ofFn fun j : Fin 64 => p.getD (64 * q + j.val) (Config.beyondPadded (64 * q + j.val))

/-- `S_q` of R110: `S_0 = IV`, `S_{q+1} = CompressBlock(S_q, P[64q .. 64q+63])`. R110
gives it up to `q = N`; beyond, it is computed from the free bytes of `blockAt` (log 20). -/
def hashState (p : List Byte) : Nat → Vector Word 8
  | 0 => romIV
  | q + 1 => compressBlock (hashState p q) (blockAt p q)

/-- The number `N` of blocks of `Pad(m)` (R110, R93; log 19 for `L ≥ 2^64`). -/
def blockCount (m : List Byte) : Nat := (pad m).length / 64

/-- `S_N` of R110 (log 19 for `L ≥ 2^64`). -/
def finalState (m : List Byte) : Vector Word 8 := hashState (pad m) (blockCount m)

/-- Hash (R110): `Render(S_N)` (log 19 for `L ≥ 2^64`). -/
def messageDigest (m : List Byte) : List Byte := render (finalState m)

end Sys2Proof.Machine
end

