-- ==== Sys2Proof/Machine/Ops.lean ====
section
/-!
DEFINITION. The operations several steps share: the response of a command step, fault entry
(spec/60_exceptions.md R133), the reset step (spec/70_reset_and_hazards.md R144), Append
(spec/41_block.md R86), the legality table of commands (spec/45_pipeline.md R114) and the two frames a
meaning runs in: a command step's checks (R113) and a micro-operation's selection (R63).
-/

namespace Sys2Proof.Machine

/-- What a step of the core answers. -/
abbrev Result := Host.Outcome State Fault Refusal

/-- The view `HEX[i]` of `H` (R33, R127). -/
def State.hex (s : State) (i : BitVec 6) : Byte := hexChar s.h i

/-- The response byte of an accepted command (R32, R113). -/
def State.respond (s : State) (r : Byte) : State := { s with rsp := some r }

/-- Fault entry, `raise Fault(c)` for the command word `w` (R133): `CAUSE`, `FCMD`, `PHASE`, and the
response 0x00. There is no return from it but reset (R134). -/
def raiseFault (c : Cause) (w : CmdWord) (s : State) : State :=
  { s with cause := c, fcmd := w, phase := .fault, rsp := some 0x00 }

/-- The reset step (R42, R144): `PHASE <- IDLE`, `CAUSE <- 0`, `FCMD <- 0`; every other register takes a
free value (log 5). There is no response (log 3). -/
def resetStep (s : State) : State where
  h := Config.resetH s.resets
  v := Config.resetV s.resets
  w := Config.resetW s.resets
  buf := Config.resetBuf s.resets
  fill := Config.resetFill s.resets
  len := Config.resetLen s.resets
  t := Config.resetT s.resets
  padi := Config.resetPadi s.resets
  fin := Config.resetFin s.resets
  phase := .idle
  cause := .noFault
  fcmd := 0x000
  rsp := none
  host := s.host
  resets := s.resets + 1

/-- The phase after a byte is appended at fill level `fill` (R86): LOAD when it is the 64th. -/
def phaseAfterAppend (fill : BitVec 7) (p : Phase) : Phase := if fill + 1 = 64 then .load else p

/-- Append (R86): `BUF[FILL] <- b; FILL <- FILL + 1; if FILL + 1 = 64 then PHASE <- LOAD`. None where
the precondition `FILL ≤ 63` fails. -/
def State.append (s : State) (b : Byte) : Option State :=
  match memWrite1 s.buf s.fill b with
  | none => none
  | some buf => some { s with buf := buf, fill := s.fill + 1, phase := phaseAfterAppend s.fill s.phase }

/-- Where FLD goes (R108). -/
def phaseAfterFold (fin : Bool) (padi : BitVec 7) (len : BitVec 64) : Phase :=
  if fin = false then .absorb else if padi.toNat < padN len then .pad else .done

/-- The "ok" entries of the table of R114. Micro-operations are no commands. -/
def legalIn : Instr → Phase → Bool
  | .nop, p => p == .idle || p == .absorb || p == .done
  | .start, p => p == .idle || p == .absorb || p == .done
  | .data _, p => p == .absorb
  | .finish, p => p == .absorb
  | .rdhex _, p => p == .done
  | .padb, _ => false
  | .ldw, _ => false
  | .xpd _, _ => false
  | .ldv, _ => false
  | .rnd _, _ => false
  | .fld, _ => false

/-- The checks of a command step around the command's own rule `body` (R113): a command presented while
the core is busy is held and nothing happens (log 11); in FAULT it is accepted and ignored; outside
the phases of R114 it raises WrongPhase with its own word `w` in `FCMD`. -/
def commandStep (i : Instr) (w : CmdWord) (body : State → Result) (s : State) : Result :=
  if s.cmdReady = false then .next s
  else if s.phase = .fault then .next (s.respond 0x00)
  else if legalIn i s.phase then body s
  else .next (raiseFault .wrongPhase w s)

/-- The step of a reserved command word (R113, R64): held while busy, ignored in FAULT, else
IllegalCommand. -/
def rejectCommand (w : CmdWord) (s : State) : State :=
  if s.cmdReady = false then s
  else if s.phase = .fault then s.respond 0x00
  else raiseFault .illegalCommand w s

/-- A micro-operation runs where the sequencer word selects it (R63), and has no meaning elsewhere
(R65, log 9). -/
def microStep (i : Instr) (body : State → Result) (s : State) : Result :=
  if decodeUseq s.useq = .instr i then body s else .refused .notSelected

end Sys2Proof.Machine
end

