-- ==== Sys2Proof/Machine/Block.lean ====
section
/-!
DEFINITION. The meaning of LDW (spec/41_block.md R88).
-/

namespace Sys2Proof.Machine

/-- LDW's own rule (R88): `W <- ToWords(BUF); T <- 16; PHASE <- EXPAND`. -/
def State.loadWords (s : State) : State := { s with w := toWords s.buf, t := 16, phase := .expand }

/-- LDW (R88). -/
def execLdw (s : State) : Result := microStep .ldw (fun s => .next s.loadWords) s

end Sys2Proof.Machine
end

