-- ==== Sys2Proof/Machine/Command.lean ====
section
/-!
DEFINITION. The meanings of the five commands (spec/45_pipeline.md R115 to R118, spec/46_digest.md R128).
-/

namespace Sys2Proof.Machine

/-- NOP (R115). -/
def execNop (s : State) : Result :=
  commandStep .nop 0x000 (fun s => .next (s.respond 0x00)) s

/-- START's own rule (R116): `H <- IV`, the control registers to 0, `PHASE <- ABSORB`. -/
def State.startMessage (s : State) : State :=
  { s with h := romIV, len := 0, fill := 0, fin := false, padi := 0, t := 0, phase := .absorb }

/-- START (R116). -/
def execStart (s : State) : Result :=
  commandStep .start 0x100 (fun s => .next (s.startMessage.respond 0x00)) s

/-- The largest value `LEN` may hold: `2^64 − 8` (R117). -/
def maxLen : BitVec 64 := 0xFFFFFFFFFFFFFFF8

/-- DATA's own rule (R117): LengthOverflow when `LEN = 2^64 − 8`, else Append and `LEN + 8`. -/
def dataBody (b : Byte) (s : State) : Result :=
  if s.len = maxLen then .next (raiseFault .lengthOverflow (0x200 + b.setWidth 12) s)
  else
    match s.append b with
    | none => .fault .bufOverrun
    | some s' => .next ({ s' with len := s'.len + 8 }.respond 0x00)

/-- DATA b (R117). -/
def execData (b : Byte) (s : State) : Result :=
  commandStep (.data b) (0x200 + b.setWidth 12) (dataBody b) s

/-- FINISH's own rule (R118). -/
def State.endMessage (s : State) : State := { s with fin := true, padi := 0, phase := .pad }

/-- FINISH (R118). -/
def execFinish (s : State) : Result :=
  commandStep .finish 0x300 (fun s => .next (s.endMessage.respond 0x00)) s

/-- RDHEX i (R128): the response is `HEX[i]`. -/
def execRdhex (i : BitVec 6) (s : State) : Result :=
  commandStep (.rdhex i) (0x400 + i.setWidth 12) (fun s => .next (s.respond (s.hex i))) s

end Sys2Proof.Machine
end

