-- ==== Sys2Proof/Machine/Compression.lean ====
section
/-!
DEFINITION. The meanings of LDV, RND and FLD (spec/44_compression.md R106 to R108).
-/

namespace Sys2Proof.Machine

/-- LDV's own rule (R106): `V <- H; PHASE <- ROUND`. -/
def State.loadWorking (s : State) : State := { s with v := s.h, phase := .round }

/-- LDV (R106). -/
def execLdv (s : State) : Result := microStep .ldv (fun s => .next s.loadWorking) s

/-- RND's own rule (R107): one round on `V` with `K[t]` and `W[t]`, then `T + 1`, or `T <- 0` and FOLD
after `t = 63`. -/
def State.roundAt (s : State) (t : BitVec 6) : State :=
  { s with
    v := Machine.roundAt s.w s.v t
    t := if t = 63 then 0 else t + 1
    phase := if t = 63 then .fold else s.phase }

/-- RND t (R107). -/
def execRnd (t : BitVec 6) (s : State) : Result := microStep (.rnd t) (fun s => .next (s.roundAt t)) s

/-- FLD's own rule (R108): `H <- H + V; FILL <- 0`, and the choice of the next phase (log 12). -/
def State.foldBack (s : State) : State :=
  { s with h := addWords s.h s.v, fill := 0, phase := phaseAfterFold s.fin s.padi s.len }

/-- FLD (R108). -/
def execFld (s : State) : Result := microStep .fld (fun s => .next s.foldBack) s

end Sys2Proof.Machine
end

