-- ==== Sys2Proof/Machine/Padder.lean ====
section
/-!
DEFINITION. The meaning of PADB (spec/42_padding.md R96).
-/

namespace Sys2Proof.Machine

/-- PADB's own rule (R96): `Append(PadByte(PADI)); PADI <- PADI + 1`. -/
def padbBody (s : State) : Result :=
  match padByte s.len s.padi.toNat with
  | none => .fault .padByteOutOfRange
  | some b =>
    match s.append b with
    | none => .fault .bufOverrun
    | some s' => .next { s' with padi := s'.padi + 1 }

/-- PADB (R96). -/
def execPadb (s : State) : Result := microStep .padb padbBody s

end Sys2Proof.Machine
end

