-- ==== Sys2Proof/Machine/Schedule.lean ====
section
/-!
DEFINITION. The meaning of XPD (spec/43_schedule.md R100).
-/

namespace Sys2Proof.Machine

/-- XPD's own rule (R100): `W[t]` by the recurrence, then `T + 1`, or `T <- 0` and INITV after `t = 63`. -/
def State.expandWord (s : State) (t : BitVec 6) : State :=
  { s with
    w := expandAt s.w t
    t := if t = 63 then 0 else t + 1
    phase := if t = 63 then .initv else s.phase }

/-- XPD t (R100). -/
def execXpd (t : BitVec 6) (s : State) : Result := microStep (.xpd t) (fun s => .next (s.expandWord t)) s

end Sys2Proof.Machine
end

