-- ==== Sys2Proof/Machine/Dispatch.lean ====
section
/-!
DEFINITION. The one dispatch: each row of the opcode table to its meaning.
-/

namespace Sys2Proof.Machine

def exec (i : Instr) (s : State) : Host.Outcome State Fault Refusal :=
  match i with
  | .nop => Sys2Proof.Machine.execNop s
  | .start => Sys2Proof.Machine.execStart s
  | .data b => Sys2Proof.Machine.execData b s
  | .finish => Sys2Proof.Machine.execFinish s
  | .rdhex k => Sys2Proof.Machine.execRdhex k s
  | .padb => Sys2Proof.Machine.execPadb s
  | .ldw => Sys2Proof.Machine.execLdw s
  | .xpd t => Sys2Proof.Machine.execXpd t s
  | .ldv => Sys2Proof.Machine.execLdv s
  | .rnd t => Sys2Proof.Machine.execRnd t s
  | .fld => Sys2Proof.Machine.execFld s

end Sys2Proof.Machine
end

