-- ==== Sys2Proof/Machine/Port.lean ====
section
/-!
DEFINITION. Which step comes next (spec/00_scope.md R13, spec/45_pipeline.md R113 and R119) and how the
host's inputs move on. It is what a program counter and a fetch are elsewhere: a command is taken from
the input pins, a micro-operation from the sequencer word (R35).
-/

namespace Sys2Proof.Machine

/-- The step that is enabled in a state. -/
inductive Action where
  /-- The reset step: `rst` is asserted (R144). -/
  | reset
  /-- A ready phase with no command presented: quiescent (R30, R143). -/
  | quiescent
  /-- A command step or a micro-operation step that performs `i`. -/
  | perform (i : Instr)
  /-- A command step with the reserved word `w` (R64). -/
  | reject (w : CmdWord)
  /-- A busy phase whose sequencer word no rule produces (R65). -/
  | unreachable
  deriving DecidableEq, Repr

/-- The step enabled in `s`: reset first (R132, R144); the host's command when `cmd_ready` is 1, the
micro-operation that `USEQ` selects when it is 0 (R30, R63, R113). -/
def nextAction (s : State) : Action :=
  if s.pins.rst then .reset
  else if s.cmdReady then
    if s.pins.cmdValid then
      match decodeCmd s.pins.cmd with
      | .instr i => .perform i
      | .rejected _ => .reject s.pins.cmd
    else .quiescent
  else
    match decodeUseq s.useq with
    | .instr i => .perform i
    | .rejected _ => .unreachable

/-- What every step does beside its own rule: the host moves on to what it drives next, unless its
command is held, which it keeps presenting (R16, log 2); and the response of the step before is gone
(R148, log 3). -/
def State.advance (s : State) : State :=
  { s with host := if s.holds then s.host else s.host.tail, rsp := none }

/-- The state in which the very next step takes the word `e` (log 13). A command is put on the pins
before whatever the host drives, in a ready phase (IDLE where the phase is busy). A sequencer word is
put into `PHASE` and `T`, with no reset on the pins; a phase code the core does not have changes
nothing. -/
def placeEncoding (e : Encoding) (s : State) : State :=
  match e with
  | .cmd c =>
    { s with
      host := { rst := false, cmdValid := true, cmd := c } :: s.host
      phase := if s.cmdReady then s.phase else .idle }
  | .useq u =>
    match phaseOfCode (phaseField u) with
    | none => s
    | some p => { s with host := quietPins :: s.host, phase := p, t := tField u }

end Sys2Proof.Machine
end

