-- ==== Sys2Proof/Machine/Step.lean ====
section
/-!
DEFINITION. One step of the core (spec/00_scope.md R13, spec/45_pipeline.md R113, R119), and the placing of
an instruction where the next step takes it.
-/

namespace Sys2Proof.Machine

/-- One step: the enabled action, on the state in which the host has moved on (`State.advance`). -/
def step (s : State) : Host.Outcome State Fault Refusal :=
  match nextAction s with
  | .reset => .next (resetStep s.advance)
  | .quiescent => .next s.advance
  | .perform i => exec i s.advance
  | .reject w => .next (rejectCommand w s.advance)
  | .unreachable => .refused .unreachableUseq

/-- `s` with the instruction word `w`, numbered as spec/opcode_table.json numbers it, placed where the
very next step takes it (log 13). A word that fits neither format changes nothing. -/
def State.withFetchWord (s : State) (nbits w : Nat) : State :=
  match tableEncoding nbits w with
  | none => s
  | some e => placeEncoding e s

end Sys2Proof.Machine
end

