-- ==== Sys2Proof/Safety.lean ====
section
/-!
DEFINITION. The terms in which claims about the core are made: the invariant of the control registers
(spec/10_state.md R29, R41), the transition table of PHASE (spec/45_pipeline.md R119), agreement on the
registers that still matter (R42, R43), and the inputs by which a host hashes a message (R68, R121).
-/

namespace Sys2Proof.Machine

/-- The host presents the word `c` (R113). -/
def present (c : CmdWord) : Pins := { rst := false, cmdValid := true, cmd := c }

/-- START, one DATA per byte of `m`, FINISH (R68, R121). -/
def messageInputs (m : List Byte) : List Pins :=
  present 0x100 :: (m.map fun b => present (0x200 + b.setWidth 12)) ++ [present 0x300]

/-- RDHEX 0 to RDHEX 63 (R68). -/
def readDigestInputs : List Pins := (List.range 64).map fun i => present (0x400 + BitVec.ofNat 12 i)

/-- The host asserts no reset now or later. -/
def State.NoReset (s : State) : Prop := ∀ p ∈ s.host, p.rst = false

/-- No fault is recorded (R29). -/
def State.Clean (s : State) : Prop := s.cause = .noFault ∧ s.fcmd = 0

/-- While a block is loaded, expanded and compressed (R41 (d)): `FILL = 64`, and the bytes appended so
far, message bytes and pad bytes, are whole blocks. -/
def State.BlockFull (s : State) : Prop :=
  s.len.toNat % 8 = 0 ∧ s.fill = 64 ∧
  (s.fin = false → s.padi = 0 ∧ (s.len.toNat / 8) % 64 = 0) ∧
  (s.fin = true → s.padi.toNat ≤ padN s.len ∧ (s.len.toNat / 8 + s.padi.toNat) % 64 = 0)

/-- The invariant: R29 (`CAUSE ≠ 0` exactly in FAULT) and the clauses of R41, those for LOAD to FOLD
strengthened by `BlockFull` so that every step keeps it. In IDLE and FAULT nothing is said of the
registers the spec leaves unspecified. -/
def State.Inv (s : State) : Prop :=
  match s.phase with
  | .idle => s.Clean
  | .absorb => s.Clean ∧ s.len.toNat % 8 = 0 ∧ s.fin = false ∧ s.padi = 0 ∧ s.t = 0 ∧
      s.fill.toNat = (s.len.toNat / 8) % 64
  | .pad => s.Clean ∧ s.len.toNat % 8 = 0 ∧ s.fin = true ∧ s.padi.toNat < padN s.len ∧ s.t = 0 ∧
      s.fill.toNat = (s.len.toNat / 8 + s.padi.toNat) % 64
  | .load => s.Clean ∧ s.BlockFull ∧ s.t = 0
  | .expand => s.Clean ∧ s.BlockFull ∧ 16 ≤ s.t.toNat
  | .initv => s.Clean ∧ s.BlockFull ∧ s.t = 0
  | .round => s.Clean ∧ s.BlockFull
  | .fold => s.Clean ∧ s.BlockFull ∧ s.t = 0
  | .done => s.Clean ∧ s.len.toNat % 8 = 0 ∧ s.fin = true ∧ s.padi.toNat = padN s.len ∧ s.t = 0 ∧ s.fill = 0
  | .fault => s.cause ≠ .noFault

/-- The table of R119: the phase after a step from `s`, where the table has a row for it. A ready phase
with no command presented keeps its phase (R30, R143). -/
def tablePhase (s : State) : Option Phase :=
  if s.pins.rst then some .idle
  else
    match s.phase with
    | .idle =>
      if s.pins.cmdValid = false then some .idle
      else
        match decodeCmd s.pins.cmd with
        | .instr .start => some .absorb
        | .instr .nop => some .idle
        | _ => some .fault
    | .absorb =>
      if s.pins.cmdValid = false then some .absorb
      else
        match decodeCmd s.pins.cmd with
        | .instr .nop => some .absorb
        | .instr .start => some .absorb
        | .instr (.data _) =>
          if s.len.toNat = 2 ^ 64 - 8 then some .fault
          else if s.fill.toNat < 63 then some .absorb
          else if s.fill.toNat = 63 then some .load
          else none
        | .instr .finish => some .pad
        | _ => some .fault
    | .pad => if s.fill.toNat < 63 then some .pad else if s.fill.toNat = 63 then some .load else none
    | .load => some .expand
    | .expand => if s.t.toNat < 63 then some .expand else some .initv
    | .initv => some .round
    | .round => if s.t.toNat < 63 then some .round else some .fold
    | .fold =>
      if s.fin = false then some .absorb
      else if s.padi.toNat < padN s.len then some .pad
      else some .done
    | .done =>
      if s.pins.cmdValid = false then some .done
      else
        match decodeCmd s.pins.cmd with
        | .instr .nop => some .done
        | .instr (.rdhex _) => some .done
        | .instr .start => some .absorb
        | _ => some .fault
    | .fault => some .fault

/-- The phases in which the registers R42 leaves unspecified may still hold unspecified values. -/
def Phase.inert : Phase → Bool
  | .idle => true
  | .fault => true
  | .absorb => false
  | .pad => false
  | .load => false
  | .expand => false
  | .initv => false
  | .round => false
  | .fold => false
  | .done => false

/-- Two states agree on everything a later step can read (R23, R39, R42): the pins and fault registers;
outside IDLE and FAULT also `H` and the control registers; of `BUF` the bytes below `FILL` while a
block is being filled and all of it in LOAD; `W` from EXPAND to ROUND; `V` in ROUND and FOLD. -/
def AgreeOnLive (a b : State) : Prop :=
  a.phase = b.phase ∧ a.cause = b.cause ∧ a.fcmd = b.fcmd ∧ a.rsp = b.rsp ∧ a.host = b.host ∧
  (a.phase.inert = false →
    a.h = b.h ∧ a.len = b.len ∧ a.fill = b.fill ∧ a.t = b.t ∧ a.padi = b.padi ∧ a.fin = b.fin ∧
    ((a.phase = .absorb ∨ a.phase = .pad) → ∀ j : Fin 64, j.val < a.fill.toNat → a.buf[j] = b.buf[j]) ∧
    (a.phase = .load → a.buf = b.buf) ∧
    ((a.phase = .expand ∨ a.phase = .initv ∨ a.phase = .round) → a.w = b.w) ∧
    ((a.phase = .round ∨ a.phase = .fold) → a.v = b.v))

/-- Two outcomes agree: both next states that agree, or the same stop. -/
def AgreeOutcome : Result → Result → Prop
  | .next a, .next b => AgreeOnLive a b
  | .fault f, .fault g => f = g
  | .refused r, .refused q => r = q
  | _, _ => False

/-- `H`, `V`, `W`, `BUF` and the control registers, without the ports and PHASE, CAUSE, FCMD: the
registers fault entry and an ignored command leave alone (R133, R134). -/
def SameDatapath (a b : State) : Prop :=
  a.h = b.h ∧ a.v = b.v ∧ a.w = b.w ∧ a.buf = b.buf ∧ a.fill = b.fill ∧ a.len = b.len ∧ a.t = b.t ∧
  a.padi = b.padi ∧ a.fin = b.fin

/-- All of the registers of R17 agree. -/
def SameRegisters (a b : State) : Prop :=
  SameDatapath a b ∧ a.phase = b.phase ∧ a.cause = b.cause ∧ a.fcmd = b.fcmd

end Sys2Proof.Machine
end

