-- ==== Sys2Proof/Certificates/Slice0/Obligations.lean ====
section
/-!
DEFINITION. The statements for the provers. Each docstring names the rules of spec/ it formalises.
-/

open Sys2Proof Sys2Proof.Machine

/-! ### Encodings -/

/-- R62, R63, R66: decoding the word of a well-formed instruction gives it back, operands included. -/
def Obligations.DecodeOfEncodeIsIdentity : Prop :=
  ∀ i : Instr, WellFormed i → decode (encode i) = .instr i

/-- R63, R66: encoding what a word decodes to gives the word back, and only well-formed instructions are
decoded. -/
def Obligations.EncodeOfDecodeIsIdentity : Prop :=
  ∀ (e : Encoding) (i : Instr), decode e = .instr i → WellFormed i ∧ encode i = e

/-- R62: a command word decodes to the row whose `c AND mask = match` holds, with the operand bits of the
row, and to no command if none holds. -/
def Obligations.CommandWordDecodesByMaskAndMatch : Prop :=
  ∀ c : CmdWord,
    (decodeCmd c = .instr .nop ↔ c &&& 0xFFF = 0x000) ∧
    (decodeCmd c = .instr .start ↔ c &&& 0xFFF = 0x100) ∧
    (∀ b, decodeCmd c = .instr (.data b) ↔ c &&& 0xF00 = 0x200 ∧ b = c.extractLsb' 0 8) ∧
    (decodeCmd c = .instr .finish ↔ c &&& 0xFFF = 0x300) ∧
    (∀ i, decodeCmd c = .instr (.rdhex i) ↔ c &&& 0xFC0 = 0x400 ∧ i = c.extractLsb' 0 6) ∧
    (decodeCmd c = .rejected .reservedCommand ↔
      c &&& 0xFFF ≠ 0x000 ∧ c &&& 0xFFF ≠ 0x100 ∧ c &&& 0xF00 ≠ 0x200 ∧ c &&& 0xFFF ≠ 0x300 ∧
      c &&& 0xFC0 ≠ 0x400)

/-- R64: the ranges and the number of the reserved command words; accepted in IDLE, ABSORB or DONE such a
word raises IllegalCommand, accepted in FAULT it is ignored. -/
def Obligations.ReservedCommandWordsFault : Prop :=
  (∀ c : CmdWord, decodeCmd c = .rejected .reservedCommand ↔
    (0x001 ≤ c.toNat ∧ c.toNat ≤ 0x0FF) ∨ (0x101 ≤ c.toNat ∧ c.toNat ≤ 0x1FF) ∨
    (0x301 ≤ c.toNat ∧ c.toNat ≤ 0x3FF) ∨ (0x440 ≤ c.toNat ∧ c.toNat ≤ 0x4FF) ∨ 0x500 ≤ c.toNat) ∧
  ((List.range 4096).filter fun n =>
    decodeCmd (BitVec.ofNat 12 n) = .rejected .reservedCommand).length = 3773 ∧
  (∀ s : State, s.pins.rst = false → s.pins.cmdValid = true →
    decodeCmd s.pins.cmd = .rejected .reservedCommand →
    ((s.phase = .idle ∨ s.phase = .absorb ∨ s.phase = .done) →
      step s = .next { s.advance with
        cause := .illegalCommand, fcmd := s.pins.cmd, phase := .fault, rsp := some 0x00 }) ∧
    (s.phase = .fault → step s = .next { s.advance with rsp := some 0x00 }))

/-- R63: a sequencer word selects the row it matches; a ready phase selects none; where no reset is
asserted a busy core performs exactly the selected micro-operation; and in a busy state of the
invariant some row is selected. -/
def Obligations.SequencerWordSelectsMicroOperation : Prop :=
  (∀ u : UseqWord,
    (decodeUseq u = .instr .padb ↔ u &&& 0x3FF = 0x080) ∧
    (decodeUseq u = .instr .ldw ↔ u &&& 0x3FF = 0x0C0) ∧
    (∀ t, decodeUseq u = .instr (.xpd t) ↔ u &&& 0x3C0 = 0x100 ∧ t = u.extractLsb' 0 6 ∧ 16 ≤ t.toNat) ∧
    (decodeUseq u = .instr .ldv ↔ u &&& 0x3FF = 0x140) ∧
    (∀ t, decodeUseq u = .instr (.rnd t) ↔ u &&& 0x3C0 = 0x180 ∧ t = u.extractLsb' 0 6) ∧
    (decodeUseq u = .instr .fld ↔ u &&& 0x3FF = 0x1C0)) ∧
  (∀ s : State, s.cmdReady = true → decodeUseq s.useq = .rejected .readyPhase) ∧
  (∀ (s : State) (i : Instr), s.pins.rst = false → s.cmdReady = false →
    (nextAction s = .perform i ↔ decodeUseq s.useq = .instr i)) ∧
  (∀ s : State, s.Inv → s.cmdReady = false → ∃ i, decodeUseq s.useq = .instr i)

/-- R62, R63: words written out from the tables decode to the instructions they stand for. -/
def Obligations.WrittenOutWordsDecode : Prop :=
  decode (.cmd 0b000100000000) = .instr .start ∧
  decode (.cmd 0b001001100001) = .instr (.data 0x61) ∧
  decode (.cmd 0b010000111111) = .instr (.rdhex 63) ∧
  decode (.useq 0b0010000000) = .instr .padb ∧
  decode (.useq 0b0011000000) = .instr .ldw ∧
  decode (.useq 0b0100010000) = .instr (.xpd 16) ∧
  decode (.useq 0b0110100101) = .instr (.rnd 37)

/-- The model's choice (log 13), beside R62 and R63: an instruction placed in a state is what the very
next step performs. -/
def Obligations.PlacedInstructionIsPerformedNext : Prop :=
  ∀ (s : State) (i : Instr), WellFormed i → nextAction (placeEncoding (encode i) s) = .perform i

/-! ### Steps and agents -/

/-- R13, R63, R113: where the pins or the sequencer word decode to `i`, the step is `exec` of `i` on the
state in which the host has moved on and the old response is gone (log 2, log 3). -/
def Obligations.StepRunsTheDecodedInstruction : Prop :=
  ∀ (s : State) (i : Instr), s.pins.rst = false →
    ((s.cmdReady = true ∧ s.pins.cmdValid = true ∧ decode (.cmd s.pins.cmd) = .instr i) ∨
     (s.cmdReady = false ∧ decode (.useq s.useq) = .instr i)) →
    step s = exec i s.advance ∧ SameRegisters s.advance s ∧ s.advance.rsp = none ∧
    s.advance.host = (if s.pins.cmdValid = true ∧ s.cmdReady = false then s.host else s.host.tail)

/-- R30, R132: `cmd_ready` is a function of PHASE; a command step exactly when a command is presented and the
core is ready, a sequencer step exactly when it is not, a reset step always, and a ready core with
no command presented is quiescent, a step that changes no register (log 16). That a busy state whose
sequencer word selects nothing is refused, by the name unreachableUseq, is the model's choice (log 9)
among the two R65 offers. -/
def Obligations.ExactlyOneAgentMoves : Prop :=
  ∀ s : State,
    (s.cmdReady = true ↔ s.phase = .idle ∨ s.phase = .absorb ∨ s.phase = .done ∨ s.phase = .fault) ∧
    (s.pins.rst = true → step s = .next (resetStep s.advance)) ∧
    (s.pins.rst = false → s.cmdReady = true → s.pins.cmdValid = true →
      (∃ i, decodeCmd s.pins.cmd = .instr i ∧ step s = exec i s.advance) ∨
      (decodeCmd s.pins.cmd = .rejected .reservedCommand ∧
        step s = .next (rejectCommand s.pins.cmd s.advance))) ∧
    (s.pins.rst = false → s.cmdReady = true → s.pins.cmdValid = false →
      ∃ s', step s = .next s' ∧ SameRegisters s' s) ∧
    (s.pins.rst = false → s.cmdReady = false →
      (∃ i, decodeUseq s.useq = .instr i ∧ step s = exec i s.advance) ∨
      ((∀ i, decodeUseq s.useq ≠ .instr i) ∧ step s = .refused .unreachableUseq))

/-- R113, R147: a command presented while the core is busy is held: the registers change as if it were not
there. That it stays on the pins (R113 says the host may keep presenting it) and that the step leaves
no response are the model's choices (log 2, log 3). -/
def Obligations.HeldCommandChangesNothing : Prop :=
  ∀ s s' : State, s.pins.rst = false → s.pins.cmdValid = true → s.cmdReady = false →
    step s = .next s' →
    s'.host = s.host ∧ s'.rsp = none ∧
    ∃ q, step { s with host := quietPins :: s.host.tail } = .next q ∧ SameRegisters s' q

/-- R32, R113: an accepted command returns the response 0x00 but for an RDHEX in DONE, which returns a digit
of `H`. That a reset step, a quiescent step and a step of a busy core leave none is the model's choice
(log 3): R148 says only that the response is not defined then. -/
def Obligations.OnlyAcceptedCommandsRespond : Prop :=
  ∀ s s' : State, step s = .next s' →
    ((s.pins.rst = true ∨ s.cmdReady = false ∨ s.pins.cmdValid = false) → s'.rsp = none) ∧
    (s.pins.rst = false → s.cmdReady = true → s.pins.cmdValid = true →
      (∀ i, s.phase = .done → decodeCmd s.pins.cmd = .instr (.rdhex i) → s'.rsp = some (hexChar s.h i)) ∧
      ((s.phase ≠ .done ∨ ∀ i, decodeCmd s.pins.cmd ≠ .instr (.rdhex i)) → s'.rsp = some 0x00))

/-- R119, R30, R143: after any step that answers a next state the phase is the one in the transition table,
and a quiescent step keeps it. In two kinds of state the table has no row: at a fill level of 64 or
more the step does not answer (log 10), and in FOLD with FIN = 1 and PADI above PADN it enters DONE,
which is DEDUCED from the last else of R108's pseudocode (log 12). -/
def Obligations.PhaseFollowsTheTransitionTable : Prop :=
  ∀ s s' : State, step s = .next s' → tablePhase s = some s'.phase

/-! ### Commands -/

/-- R115: NOP in IDLE, ABSORB, DONE, and FAULT with the same effect: no register changes, response 0x00.
That `exec` of a command in a busy phase, where R113 says no step happens, answers the same state is
the model's (log 11): `step` never asks for it. -/
def Obligations.NopChangesNoRegister : Prop :=
  encode .nop = .cmd 0x000 ∧
  ∀ s : State,
    ((s.phase = .idle ∨ s.phase = .absorb ∨ s.phase = .done ∨ s.phase = .fault) →
      exec .nop s = .next { s with rsp := some 0x00 }) ∧
    (s.cmdReady = false → exec .nop s = .next s)

/-- R116, with the values of R102: START in IDLE, ABSORB and DONE initialises `H` and the control registers
and leaves `V`, `W` and `BUF`; two STARTs in a row are the same as one. Ignored in FAULT (R113, R114).
The busy clause is the model's (log 11), beside R113. -/
def Obligations.StartBeginsAMessage : Prop :=
  encode .start = .cmd 0x100 ∧
  ∀ s : State,
    ((s.phase = .idle ∨ s.phase = .absorb ∨ s.phase = .done) →
      exec .start s = .next { s with
        h := #v[0x6A09E667, 0xBB67AE85, 0x3C6EF372, 0xA54FF53A, 0x510E527F, 0x9B05688C, 0x1F83D9AB, 0x5BE0CD19]
        len := 0, fill := 0, fin := false, padi := 0, t := 0, phase := .absorb, rsp := some 0x00 }) ∧
    (s.phase = .fault → exec .start s = .next { s with rsp := some 0x00 }) ∧
    (s.cmdReady = false → exec .start s = .next s) ∧
    (∀ s1, (s.phase = .idle ∨ s.phase = .absorb ∨ s.phase = .done) → exec .start s = .next s1 →
      exec .start s1 = .next s1)

/-- R116 (a), (b), R42: what was in the registers before a START can never matter again. -/
def Obligations.StartForgetsThePast : Prop :=
  ∀ a b : State, (a.phase = .idle ∨ a.phase = .absorb ∨ a.phase = .done) →
    (b.phase = .idle ∨ b.phase = .absorb ∨ b.phase = .done) →
    a.cause = b.cause → a.fcmd = b.fcmd → a.host = b.host →
    ∃ a' b', exec .start a = .next a' ∧ exec .start b = .next b' ∧ AgreeOnLive a' b'

/-- R86, R117: DATA in ABSORB writes `BUF[FILL]`, counts the byte and its eight bits, and goes to LOAD
with the 64th byte; nothing else changes. The DATA that would make the bit length 2^64 raises
LengthOverflow and appends nothing. WrongPhase in IDLE and DONE, ignored in FAULT (R113, R114). The busy
clause is the model's (log 11), beside R113. -/
def Obligations.DataAppendsOneByteOrFaults : Prop :=
  ∀ (s : State) (b : Byte),
    encode (.data b) = .cmd (0x200 + b.setWidth 12) ∧
    (∀ ok : s.fill.toNat < 64, s.phase = .absorb → s.len.toNat ≠ 2 ^ 64 - 8 →
      exec (.data b) s = .next { s with
        buf := s.buf.set s.fill.toNat b ok
        fill := s.fill + 1
        len := s.len + 8
        phase := if s.fill.toNat = 63 then .load else .absorb
        rsp := some 0x00 }) ∧
    (s.phase = .absorb → s.len.toNat = 2 ^ 64 - 8 →
      exec (.data b) s = .next { s with
        cause := .lengthOverflow, fcmd := 0x200 + b.setWidth 12, phase := .fault, rsp := some 0x00 }) ∧
    ((s.phase = .idle ∨ s.phase = .done) →
      exec (.data b) s = .next { s with
        cause := .wrongPhase, fcmd := 0x200 + b.setWidth 12, phase := .fault, rsp := some 0x00 }) ∧
    (s.phase = .fault → exec (.data b) s = .next { s with rsp := some 0x00 }) ∧
    (s.cmdReady = false → exec (.data b) s = .next s)

/-- R118: FINISH in ABSORB sets FIN, clears PADI and enters PAD; nothing else changes. WrongPhase in IDLE
and DONE, ignored in FAULT (R113, R114). The busy clause is the model's (log 11), beside R113. -/
def Obligations.FinishStartsThePadder : Prop :=
  encode .finish = .cmd 0x300 ∧
  ∀ s : State,
    (s.phase = .absorb →
      exec .finish s = .next { s with fin := true, padi := 0, phase := .pad, rsp := some 0x00 }) ∧
    ((s.phase = .idle ∨ s.phase = .done) →
      exec .finish s = .next { s with
        cause := .wrongPhase, fcmd := 0x300, phase := .fault, rsp := some 0x00 }) ∧
    (s.phase = .fault → exec .finish s = .next { s with rsp := some 0x00 }) ∧
    (s.cmdReady = false → exec .finish s = .next s)

/-- R126, R127, R128: RDHEX in DONE returns the ASCII code of the lowercase hexadecimal digit of nibble
`i` of `H`, most significant first, and changes no register; WrongPhase in IDLE and ABSORB; an index
above 63 is a reserved word (R64). Ignored in FAULT (R114, R134). The busy clause is the model's
(log 11), beside R113. -/
def Obligations.RdhexReturnsOneDigit : Prop :=
  (∀ c : CmdWord, c &&& 0xF00 = 0x400 → c &&& 0x0C0 ≠ 0 → decodeCmd c = .rejected .reservedCommand) ∧
  ∀ (s : State) (i : BitVec 6) (k : i.toNat / 8 < 8),
    encode (.rdhex i) = .cmd (0x400 + i.setWidth 12) ∧
    (s.phase = .done →
      ∃ r : Byte, exec (.rdhex i) s = .next { s with rsp := some r } ∧
        let n := (s.h[i.toNat / 8].toNat / 2 ^ (28 - 4 * (i.toNat % 8))) % 16
        r.toNat = if n < 10 then 0x30 + n else 0x61 + (n - 10)) ∧
    ((s.phase = .idle ∨ s.phase = .absorb) →
      exec (.rdhex i) s = .next { s with
        cause := .wrongPhase, fcmd := 0x400 + i.setWidth 12, phase := .fault, rsp := some 0x00 }) ∧
    (s.phase = .fault → exec (.rdhex i) s = .next { s with rsp := some 0x00 }) ∧
    (s.cmdReady = false → exec (.rdhex i) s = .next s)

/-- R114: the table of which command is legal in which ready phase. Of an "ok" entry
only that the command completes without a fault is said here: the commands' own effects are in the
statements about each. For DATA it is said of the fill levels R86 allows. The reserved words' row is
said of `rejectCommand`, which the step applies to exactly the reserved words. -/
def Obligations.CommandLegalityTable : Prop :=
  ∀ s : State,
    (∀ b, (s.phase = .idle ∨ s.phase = .done) →
      exec (.data b) s = .next { s with
        cause := .wrongPhase, fcmd := 0x200 + b.setWidth 12, phase := .fault, rsp := some 0x00 }) ∧
    ((s.phase = .idle ∨ s.phase = .done) →
      exec .finish s = .next { s with
        cause := .wrongPhase, fcmd := 0x300, phase := .fault, rsp := some 0x00 }) ∧
    (∀ i, (s.phase = .idle ∨ s.phase = .absorb) →
      exec (.rdhex i) s = .next { s with
        cause := .wrongPhase, fcmd := 0x400 + i.setWidth 12, phase := .fault, rsp := some 0x00 }) ∧
    (∀ b, s.phase = .absorb → s.len.toNat = 2 ^ 64 - 8 →
      exec (.data b) s = .next { s with
        cause := .lengthOverflow, fcmd := 0x200 + b.setWidth 12, phase := .fault, rsp := some 0x00 }) ∧
    (∀ i, (s.phase = .idle ∨ s.phase = .absorb ∨ s.phase = .done) →
      (i = .nop ∨ i = .start ∨ (i = .finish ∧ s.phase = .absorb) ∨ (∃ k, i = .rdhex k ∧ s.phase = .done) ∨
        (∃ b, i = .data b ∧ s.phase = .absorb ∧ s.len.toNat ≠ 2 ^ 64 - 8 ∧ s.fill.toNat < 64)) →
      ∃ t, exec i s = .next t ∧ t.phase ≠ .fault ∧ t.cause = s.cause ∧ t.fcmd = s.fcmd) ∧
    (∀ i w, s.phase = .fault → encode i = .cmd w → exec i s = .next { s with rsp := some 0x00 }) ∧
    (∀ w, (s.phase = .idle ∨ s.phase = .absorb ∨ s.phase = .done) →
      rejectCommand w s = { s with cause := .illegalCommand, fcmd := w, phase := .fault, rsp := some 0x00 }) ∧
    (∀ w, s.phase = .fault → rejectCommand w s = { s with rsp := some 0x00 })

/-! ### Faults -/

/-- R131, R132: which fault an accepted command raises, in the order of the checks, with the presented
word in FCMD. -/
def Obligations.FaultCauseByPriority : Prop :=
  ∀ s : State, s.pins.rst = false → s.pins.cmdValid = true →
    (s.phase = .idle ∨ s.phase = .absorb ∨ s.phase = .done) →
    (decodeCmd s.pins.cmd = .rejected .reservedCommand →
      step s = .next (raiseFault .illegalCommand s.pins.cmd s.advance)) ∧
    (∀ i, decodeCmd s.pins.cmd = .instr i →
      ((∃ b, i = .data b) ∨ i = .finish) → s.phase ≠ .absorb →
      step s = .next (raiseFault .wrongPhase s.pins.cmd s.advance)) ∧
    (∀ k, decodeCmd s.pins.cmd = .instr (.rdhex k) → s.phase ≠ .done →
      step s = .next (raiseFault .wrongPhase s.pins.cmd s.advance)) ∧
    (∀ b, decodeCmd s.pins.cmd = .instr (.data b) → s.phase = .absorb → s.len.toNat = 2 ^ 64 - 8 →
      step s = .next (raiseFault .lengthOverflow s.pins.cmd s.advance))

/-- R131, R133: FAULT is entered only by accepting a command in IDLE, ABSORB or DONE, and the entry writes
CAUSE, FCMD and PHASE, returns 0x00 and leaves every other register as it was. -/
def Obligations.FaultEntryIsPrecise : Prop :=
  ∀ s s' : State, s.phase ≠ .fault → step s = .next s' → s'.phase = .fault →
    s.pins.rst = false ∧ s.pins.cmdValid = true ∧
    (s.phase = .idle ∨ s.phase = .absorb ∨ s.phase = .done) ∧
    SameDatapath s' s ∧ s'.cause ≠ .noFault ∧ s'.causePins = s'.cause.code ∧ s'.fcmdPins = s.pins.cmd ∧
    s'.rsp = some 0x00 ∧ s'.status = 0x59 ∧ s'.cmdReady = true

/-- R134: in FAULT every step but a reset step leaves all registers as they are and returns 0x00 for a
presented command; a reset step leaves FAULT and clears CAUSE and FCMD. -/
def Obligations.FaultIsLeftOnlyByReset : Prop :=
  ∀ s : State, s.phase = .fault →
    ∃ s', step s = .next s' ∧
      (s.pins.rst = false → SameRegisters s' s ∧ (s.pins.cmdValid = true → s'.rsp = some 0x00)) ∧
      (s.pins.rst = true → s'.phase = .idle ∧ s'.cause = .noFault ∧ s'.fcmd = 0)

/-! ### Micro-operations -/

/-- R95, R96: PADB appends pad byte number PADI: 0x80, then PADK zeros, then the eight bytes of LEN, most
significant first; nothing else changes. -/
def Obligations.PadbAppendsThePadByte : Prop :=
  encode .padb = .useq 0x080 ∧
  ∀ (s : State) (ok : s.fill.toNat < 64), s.phase = .pad → s.t = 0 → s.padi.toNat < padN s.len →
    ∃ b : Byte,
      exec .padb s = .next { s with
        buf := s.buf.set s.fill.toNat b ok
        fill := s.fill + 1
        padi := s.padi + 1
        phase := if s.fill.toNat = 63 then .load else .pad } ∧
      (s.padi = 0 → b = 0x80) ∧
      (1 ≤ s.padi.toNat → s.padi.toNat ≤ padK s.len → b = 0x00) ∧
      (padK s.len < s.padi.toNat →
        b.toNat = (s.len.toNat / 256 ^ (8 + padK s.len - s.padi.toNat)) % 256)

/-- R87, R88: LDW makes the sixteen big-endian words of `BUF`, clears the other 48, sets `T` to 16 and
enters EXPAND; nothing else changes. -/
def Obligations.LdwLoadsTheBlock : Prop :=
  encode .ldw = .useq 0x0C0 ∧
  ∀ s : State, s.phase = .load → s.t = 0 →
    ∃ w : Vector Word 64, exec .ldw s = .next { s with w := w, t := 16, phase := .expand } ∧
      (∀ i : Fin 16, (w[i.val]).toNat =
        s.buf[4 * i.val].toNat * 2 ^ 24 + s.buf[4 * i.val + 1].toNat * 2 ^ 16 +
        s.buf[4 * i.val + 2].toNat * 2 ^ 8 + s.buf[4 * i.val + 3].toNat) ∧
      (∀ i : Fin 64, 16 ≤ i.val → w[i.val] = 0)

/-- R100: XPD writes `W[t]` by the recurrence modulo 2^32, leaves every other word, and advances `T` or,
after `t = 63`, clears it and enters INITV; nothing else changes. -/
def Obligations.XpdExpandsOneWord : Prop :=
  (∀ t, encode (.xpd t) = .useq (0x100 + t.setWidth 10)) ∧
  ∀ (s : State) (t : BitVec 6), s.phase = .expand → s.t = t → 16 ≤ t.toNat →
    ∃ w : Vector Word 64,
      exec (.xpd t) s = .next { s with
        w := w
        t := if t = 63 then 0 else t + 1
        phase := if t = 63 then .initv else .expand } ∧
      (wordAt w t).toNat = ((wordAt s.w (t - 16)).toNat + (wordAt s.w (t - 7)).toNat +
        (ssig0 (wordAt s.w (t - 15))).toNat + (ssig1 (wordAt s.w (t - 2))).toNat) % 2 ^ 32 ∧
      (∀ j, j ≠ t → wordAt w j = wordAt s.w j)

/-- R106: LDV copies `H` into `V` and enters ROUND; nothing else changes. -/
def Obligations.LdvCopiesTheHashState : Prop :=
  encode .ldv = .useq 0x140 ∧
  ∀ s : State, s.phase = .initv → s.t = 0 → exec .ldv s = .next { s with v := s.h, phase := .round }

/-- R107: RND performs one round on a..h, all eight writes from the values before, and advances `T` or,
after `t = 63`, clears it and enters FOLD; nothing else changes. -/
def Obligations.RndPerformsOneRound : Prop :=
  (∀ t, encode (.rnd t) = .useq (0x180 + t.setWidth 10)) ∧
  ∀ (s : State) (t : BitVec 6), s.phase = .round → s.t = t →
    ∃ v : Vector Word 8,
      exec (.rnd t) s = .next { s with
        v := v
        t := if t = 63 then 0 else t + 1
        phase := if t = 63 then .fold else .round } ∧
      (let t1 := ((s.v[7]).toNat + (bsig1 s.v[4]).toNat + (ch s.v[4] s.v[5] s.v[6]).toNat +
          (wordAt romK t).toNat + (wordAt s.w t).toNat) % 2 ^ 32
       let t2 := ((bsig0 s.v[0]).toNat + (maj s.v[0] s.v[1] s.v[2]).toNat) % 2 ^ 32
       (v[0]).toNat = (t1 + t2) % 2 ^ 32 ∧ v[1] = s.v[0] ∧ v[2] = s.v[1] ∧ v[3] = s.v[2] ∧
       (v[4]).toNat = ((s.v[3]).toNat + t1) % 2 ^ 32 ∧ v[5] = s.v[4] ∧ v[6] = s.v[5] ∧ v[7] = s.v[6])

/-- R108: FLD adds `V` into `H` word by word modulo 2^32, empties the buffer and chooses ABSORB, PAD or
DONE; nothing else changes. -/
def Obligations.FldFoldsAndChoosesThePhase : Prop :=
  encode .fld = .useq 0x1C0 ∧
  ∀ s : State, s.phase = .fold → s.t = 0 →
    ∃ h : Vector Word 8,
      exec .fld s = .next { s with
        h := h
        fill := 0
        phase := if s.fin = false then .absorb else if s.padi.toNat < padN s.len then .pad else .done } ∧
      (∀ i : Fin 8, (h[i.val]).toNat = ((s.h[i.val]).toNat + (s.v[i.val]).toNat) % 2 ^ 32)

/-- The model's choice (log 9, log 10), beside R63, R65, R86 and R96: a micro-operation the sequencer word
does not select is refused, an Append to a full buffer and a pad byte beyond PADN stop with a fault. -/
def Obligations.StopsOutsideThePreconditions : Prop :=
  (∀ (i : Instr) (u : UseqWord) (s : State), encode i = .useq u → decode (.useq s.useq) ≠ .instr i →
    exec i s = .refused .notSelected) ∧
  (∀ (s : State) (b : Byte), s.phase = .absorb → s.len.toNat ≠ 2 ^ 64 - 8 → 64 ≤ s.fill.toNat →
    exec (.data b) s = .fault .bufOverrun) ∧
  (∀ s : State, s.phase = .pad → s.t = 0 → padN s.len ≤ s.padi.toNat →
    exec .padb s = .fault .padByteOutOfRange) ∧
  (∀ s : State, s.phase = .pad → s.t = 0 → s.padi.toNat < padN s.len → 64 ≤ s.fill.toNat →
    exec .padb s = .fault .bufOverrun)

/-! ### Who writes what -/

/-- R39: the frame of every instruction: each register is left as it was by every instruction that the
table of R39 does not list as a writer of it; CAUSE and FCMD change only with an entry into FAULT; DATA
and PADB write one byte of `BUF`, XPD one word of `W`. -/
def Obligations.InstructionsWriteOnlyTheirRegisters : Prop :=
  ∀ (i : Instr) (s t : State), exec i s = .next t →
    (i ≠ .start → i ≠ .fld → t.h = s.h) ∧
    (i ≠ .ldv → (∀ k, i ≠ .rnd k) → t.v = s.v) ∧
    (i ≠ .ldw → (∀ k, i ≠ .xpd k) → t.w = s.w) ∧
    ((∀ b, i ≠ .data b) → i ≠ .padb → t.buf = s.buf) ∧
    (i ≠ .start → (∀ b, i ≠ .data b) → i ≠ .padb → i ≠ .fld → t.fill = s.fill) ∧
    (i ≠ .start → (∀ b, i ≠ .data b) → t.len = s.len) ∧
    (i ≠ .start → i ≠ .ldw → (∀ k, i ≠ .xpd k) → (∀ k, i ≠ .rnd k) → t.t = s.t) ∧
    (i ≠ .start → i ≠ .finish → i ≠ .padb → t.padi = s.padi) ∧
    (i ≠ .start → i ≠ .finish → t.fin = s.fin) ∧
    ((i = .nop ∨ ∃ k, i = .rdhex k) → t.phase = s.phase ∨ t.phase = .fault) ∧
    ((t.phase ≠ .fault ∨ s.phase = .fault) → t.cause = s.cause ∧ t.fcmd = s.fcmd) ∧
    t.host = s.host ∧ t.resets = s.resets ∧
    (∀ j : Fin 64, j.val ≠ s.fill.toNat → t.buf[j.val] = s.buf[j.val]) ∧
    (∀ k j, i = .xpd k → j ≠ k → wordAt t.w j = wordAt s.w j)

/-- R18, R40: over all steps, `H` changes only by a reset step, by an accepted START, which makes it IV, and
in FOLD, which adds `V` modulo 2^32. -/
def Obligations.HashStateIsUpdatedOnlyByAddition : Prop :=
  ∀ s s' : State, step s = .next s' →
    s'.h = s.h ∨ s.pins.rst = true ∨
    (s.cmdReady = true ∧ s.pins.cmdValid = true ∧ decodeCmd s.pins.cmd = .instr .start ∧ s'.h = romIV) ∨
    (s.phase = .fold ∧ ∀ i : Fin 8, s'.h[i.val] = s.h[i.val] + s.v[i.val])

/-- R21: while a block is loaded, expanded, compressed and folded no step but a reset step writes `BUF`. -/
def Obligations.BlockIsReadOnlyWhileCompressed : Prop :=
  ∀ s s' : State, s.pins.rst = false →
    (s.phase = .load ∨ s.phase = .expand ∨ s.phase = .initv ∨ s.phase = .round ∨ s.phase = .fold) →
    step s = .next s' → s'.buf = s.buf

/-- R29: CAUSE and FCMD are written only by a reset step and by entry into FAULT. -/
def Obligations.FaultRegistersKeepTheFirstFault : Prop :=
  ∀ s s' : State, step s = .next s' → (s'.cause ≠ s.cause ∨ s'.fcmd ≠ s.fcmd) →
    s.pins.rst = true ∨ (s.phase ≠ .fault ∧ s'.phase = .fault)

/-! ### Bit operations -/

/-- R73: the rotation inverse law at widths 16, 32 and 64, and with the two rotates exchanged. -/
def Obligations.RotationInverseLaw : Prop :=
  (∀ (x : BitVec 16) (n : Nat), rotl (rotr x n) n = x ∧ rotr (rotl x n) n = x) ∧
  (∀ (x : BitVec 32) (n : Nat), rotl (rotr x n) n = x ∧ rotr (rotl x n) n = x) ∧
  (∀ (x : BitVec 64) (n : Nat), rotl (rotr x n) n = x ∧ rotr (rotl x n) n = x)

/-- R70, R71, R72: bit by bit, for every amount, at widths 16, 32 and 64: bit `i` of the right rotate is bit
`(i + s) mod w` of `x`, bit `(i + s) mod w` of the left rotate is bit `i` of `x`, and the left rotate is the
right rotate by `w − s`. -/
def Obligations.RotatesBitByBit : Prop :=
  ∀ (w : Nat) (ok : w = 16 ∨ w = 32 ∨ w = 64) (x : BitVec w) (n : Nat),
    (∀ i, i < w → (rotr x n ok).getLsbD i = x.getLsbD ((i + n % w) % w)) ∧
    (∀ i, i < w → (rotl x n ok).getLsbD ((i + n % w) % w) = x.getLsbD i) ∧
    rotl x n ok = rotr x (w - n % w) ok

/-- R74: SHR3 and SHR10 divide by 2^3 and 2^10. -/
def Obligations.ShiftsDivideByPowersOfTwo : Prop :=
  ∀ x : Word, (shr3 x).toNat = x.toNat / 2 ^ 3 ∧ (shr10 x).toNat = x.toNat / 2 ^ 10

/-- R75: SPLIT gives `w/8` bytes, byte `j` being `(x >> (w − 8 − 8j)) AND 0xFF`, at widths 16, 32, 64. -/
def Obligations.SplitIsBigEndian : Prop :=
  ∀ (w : Nat) (ok : w = 16 ∨ w = 32 ∨ w = 64) (x : BitVec w),
    (split x ok).length = w / 8 ∧
    ∀ j, j < w / 8 → ((split x ok)[j]?).map BitVec.toNat = some (x.toNat / 2 ^ (w - 8 - 8 * j) % 256)

/-- R76, R77: CH chooses by the bit of `x`; MAJ is 1 exactly where at least two operand bits are 1. -/
def Obligations.ChooseAndMajorityBitByBit : Prop :=
  ∀ (x y z : Word) (i : Nat), i < 32 →
    ((ch x y z).getLsbD i = if x.getLsbD i then y.getLsbD i else z.getLsbD i) ∧
    ((maj x y z).getLsbD i = true ↔
      2 ≤ (x.getLsbD i).toNat + (y.getLsbD i).toNat + (z.getLsbD i).toNat)

/-- R78 to R81 with R71 and R74: the four sigma functions bit by bit. -/
def Obligations.SigmaFunctionsBitByBit : Prop :=
  ∀ (x : Word) (i : Nat), i < 32 →
    ((bsig0 x).getLsbD i =
      (x.getLsbD ((i + 2) % 32) ^^ x.getLsbD ((i + 13) % 32) ^^ x.getLsbD ((i + 22) % 32))) ∧
    ((bsig1 x).getLsbD i =
      (x.getLsbD ((i + 6) % 32) ^^ x.getLsbD ((i + 11) % 32) ^^ x.getLsbD ((i + 25) % 32))) ∧
    ((ssig0 x).getLsbD i =
      (x.getLsbD ((i + 7) % 32) ^^ x.getLsbD ((i + 18) % 32) ^^ (decide (i < 29) && x.getLsbD (i + 3)))) ∧
    ((ssig1 x).getLsbD i =
      (x.getLsbD ((i + 17) % 32) ^^ x.getLsbD ((i + 19) % 32) ^^ (decide (i < 22) && x.getLsbD (i + 10))))

/-! ### Padding, schedule, rendering -/

/-- R94: PADK and PADN as functions of LEN, their ranges, their examples, and that LEN, so both, stays from
FINISH to the next START. -/
def Obligations.PadCountFollowsTheModularFormula : Prop :=
  (∀ len : BitVec 64,
    (padK len : Int) = ((440 - (len.toNat % 512 : Nat) : Int) % 512) / 8 ∧ padK len ≤ 63 ∧
    padN len = padK len + 9 ∧ 9 ≤ padN len ∧ padN len ≤ 72) ∧
  (padK 0 = 55 ∧ padN 0 = 64 ∧ padK 24 = 52 ∧ padN 24 = 61 ∧ padK 440 = 0 ∧ padN 440 = 9 ∧
    padK 448 = 63 ∧ padN 448 = 72 ∧ padK 504 = 56 ∧ padN 504 = 65 ∧ padK 512 = 55 ∧ padN 512 = 64) ∧
  (∀ s s' : State, s.Inv → s.fin = true → s.pins.rst = false → nextAction s ≠ .perform .start →
    step s = .next s' → padK s'.len = padK s.len ∧ padN s'.len = padN s.len)

/-- R90, R91, R93: for every message whose bit length fits 64 bits the padded length is a whole number of
blocks and at least one, the message comes first, the length field last, and the number of zero bytes is
the least possible. -/
def Obligations.PaddingFillsWholeBlocks : Prop :=
  ∀ m : List Byte, 8 * m.length < 2 ^ 64 →
    (pad m).length = m.length + 1 + padK (bitLength m) + 8 ∧
    (pad m).length % 64 = 0 ∧ 1 ≤ blockCount m ∧ blockCount m * 64 = (pad m).length ∧
    blockCount m = (if m.length % 64 ≤ 55 then m.length / 64 + 1 else m.length / 64 + 2) ∧
    (pad m).take m.length = m ∧
    (pad m)[m.length]? = some 0x80 ∧
    (∀ j, j < padK (bitLength m) → (pad m)[m.length + 1 + j]? = some 0x00) ∧
    (pad m).drop ((pad m).length - 8) = split (BitVec.ofNat 64 (8 * m.length)) ∧
    (8 * m.length + 8 + 8 * padK (bitLength m) + 64) % 512 = 0 ∧
    (∀ k, (8 * m.length + 8 + 8 * k + 64) % 512 = 0 → padK (bitLength m) ≤ k)

/-- R95: the pad bytes one by one, none beyond `PADN`; in order, they are what Pad appends to a message whose
bit length fits 64 bits (R90; longer messages have no padding). -/
def Obligations.PadBytesMakeThePadding : Prop :=
  (∀ len : BitVec 64,
    padByte len 0 = some 0x80 ∧
    (∀ j, 1 ≤ j → j ≤ padK len → padByte len j = some 0x00) ∧
    (∀ j, padK len + 1 ≤ j → j ≤ padK len + 8 → padByte len j = (split len)[j - padK len - 1]?) ∧
    (∀ j, padByte len j ≠ none ↔ j < padN len)) ∧
  ∀ m : List Byte, 8 * m.length < 2 ^ 64 →
    (pad m).map some = m.map some ++ (List.range (padN (bitLength m))).map (padByte (bitLength m))

/-- R98: Expand keeps the first sixteen words, satisfies the recurrence at every other index, and depends
on the first sixteen words only. -/
def Obligations.ExpandSatisfiesTheRecurrence : Prop :=
  ∀ x : Vector Word 64,
    (∀ t : BitVec 6, t.toNat < 16 → wordAt (expand x) t = wordAt x t) ∧
    (∀ t : BitVec 6, 16 ≤ t.toNat →
      (wordAt (expand x) t).toNat =
        ((wordAt (expand x) (t - 16)).toNat + (wordAt (expand x) (t - 7)).toNat +
          (ssig0 (wordAt (expand x) (t - 15))).toNat + (ssig1 (wordAt (expand x) (t - 2))).toNat) % 2 ^ 32) ∧
    (∀ y : Vector Word 64, (∀ t : BitVec 6, t.toNat < 16 → wordAt x t = wordAt y t) → expand x = expand y)

/-- R112, R124: every digest has 64 characters, all of them lowercase hexadecimal digits. For a
message of 2^64 bits or more it is so of the model's free value (log 19), whatever that is. -/
def Obligations.DigestIsSixtyFourHexDigits : Prop :=
  ∀ m : List Byte, (messageDigest m).length = 64 ∧
    ∀ c ∈ messageDigest m, (0x30 ≤ c.toNat ∧ c.toNat ≤ 0x39) ∨ (0x61 ≤ c.toNat ∧ c.toNat ≤ 0x66)

/-- R126: the contents of HEXLUT. -/
def Obligations.HexTableHoldsLowercaseAscii : Prop :=
  (∀ v : Fin 16, hexLut[v.val].toNat = if v.val < 10 then 0x30 + v.val else 0x61 + (v.val - 10)) ∧
  hexLut.toList =
    [0x30, 0x31, 0x32, 0x33, 0x34, 0x35, 0x36, 0x37, 0x38, 0x39, 0x61, 0x62, 0x63, 0x64, 0x65, 0x66]

/-- R31: the fields of STATUS and the ten values that can appear. -/
def Obligations.StatusShowsThePhase : Prop :=
  ∀ s : State,
    s.status.extractLsb' 0 4 = s.phase.code ∧ s.status.getLsbD 4 = s.cmdReady ∧
    (s.status.getLsbD 5 = true ↔ s.phase = .done) ∧ (s.status.getLsbD 6 = true ↔ s.phase = .fault) ∧
    s.status.getLsbD 7 = false ∧
    s.status = match s.phase with
      | .idle => 0x10
      | .absorb => 0x11
      | .pad => 0x02
      | .load => 0x03
      | .expand => 0x04
      | .initv => 0x05
      | .round => 0x06
      | .fold => 0x07
      | .done => 0x38
      | .fault => 0x59

/-- R102, R103 (log 7: values the spec took from general knowledge): `IV` and `K` are the first 32 bits of
the fractional parts of the square roots of the first 8 primes and the cube roots of the first 64. The
root of `p` scaled by 2^32 is the whole number `x` between the two bounds. -/
def Obligations.RomWordsAreRootsOfPrimes : Prop :=
  ∃ primes : List Nat, primes.length = 64 ∧
    (∀ p, p ∈ primes ↔ p ≤ 311 ∧ 2 ≤ p ∧ ∀ d, 2 ≤ d → d < p → p % d ≠ 0) ∧
    (∀ i j : Fin 64, i < j → primes.getD i.val 0 < primes.getD j.val 0) ∧
    (∀ i : Fin 8, ∃ x, x ^ 2 ≤ primes.getD i.val 0 * 2 ^ 64 ∧ primes.getD i.val 0 * 2 ^ 64 < (x + 1) ^ 2 ∧
      (romIV[i.val]).toNat = x % 2 ^ 32) ∧
    (∀ t : Fin 64, ∃ x, x ^ 3 ≤ primes.getD t.val 0 * 2 ^ 96 ∧ primes.getD t.val 0 * 2 ^ 96 < (x + 1) ^ 3 ∧
      (romK[t.val]).toNat = x % 2 ^ 32)

/-! ### Reset and invariants -/

/-- R42, R132, R144: a reset step is taken in every state, whatever command is presented with it, and leaves
IDLE with no fault recorded and the outputs of R42. That it leaves no response (log 3) and that the
host moves on, so that a command presented beside reset is lost (log 2, log 18), are the model's
choices. -/
def Obligations.ResetWinsInEveryState : Prop :=
  ∀ s : State, s.pins.rst = true →
    ∃ s', step s = .next s' ∧ s'.phase = .idle ∧ s'.cause = .noFault ∧ s'.fcmd = 0 ∧ s'.rsp = none ∧
      s'.cmdReady = true ∧ s'.status = 0x10 ∧ s'.causePins = 0 ∧ s'.fcmdPins = 0 ∧ s'.host = s.host.tail

/-- R42: the values the spec gives the machine after reset, and the invariant in that state. -/
def Obligations.ResetStateIsIdleAndClean : Prop :=
  State.reset.phase = .idle ∧ State.reset.cause = .noFault ∧ State.reset.fcmd = 0x000 ∧
  State.reset.cmdReady = true ∧ State.reset.status = 0x10 ∧ State.reset.Inv

/-- R29, R41, R120, R130: from every state of the invariant the step answers a next state, and the invariant
holds there. -/
def Obligations.EveryStepKeepsTheInvariant : Prop :=
  ∀ s : State, s.Inv → ∃ s', step s = .next s' ∧ s'.Inv

/-- R39, R42: one step from two states that agree on the live registers gives the same outcome, up to
registers that are not live. -/
def Obligations.StepReadsOnlyLiveRegisters : Prop :=
  ∀ a b : State, AgreeOnLive a b → AgreeOutcome (step a) (step b)

/-- R42, R43: two runs from IDLE that differ only in the registers reset leaves unspecified show the same
phases, faults and responses, however long they are and whatever the host does. -/
def Obligations.UnspecifiedRegistersNeverMatter : Prop :=
  ∀ (n : Nat) (a b : State), a.phase = .idle → b.phase = .idle → a.cause = b.cause → a.fcmd = b.fcmd →
    a.rsp = b.rsp → a.host = b.host →
    AgreeOutcome (Host.Core.run core n a) (Host.Core.run core n b)

/-! ### The computation -/

/-- R104, R109: from LOAD, with no reset, 115 steps compress the block into `H`; their other effects are
those R109 lists, and FLD chooses the phase. -/
def Obligations.OneBlockTakes115StepsAndCompresses : Prop :=
  ∀ s : State, s.phase = .load → s.t = 0 → s.NoReset →
    ∃ s', Host.Core.run core 115 s = .next s' ∧
      s'.h = compressBlock s.h s.buf ∧
      s'.w = expand (toWords s.buf) ∧ s'.v = rounds (expand (toWords s.buf)) s.h ∧
      s'.fill = 0 ∧ s'.t = 0 ∧ s'.buf = s.buf ∧ s'.len = s.len ∧ s'.padi = s.padi ∧ s'.fin = s.fin ∧
      s'.cause = s.cause ∧ s'.fcmd = s.fcmd ∧
      s'.phase = (if s.fin = false then .absorb else if s.padi.toNat < padN s.len then .pad else .done)

/-- R110, R120, R121: from any ready phase but FAULT, START, the bytes of any message of at most 2^61 − 1
bytes, and FINISH end in DONE with `H = S_N`, in as many steps as R120 counts. That held commands
stay at the head of the host's list, so that what it presents next is untouched, is the model's choice
(log 2), and so is the premise that the host presents commands without a pause. -/
def Obligations.CoreComputesTheHashOfEveryMessage : Prop :=
  ∀ (s : State) (m : List Byte) (rest : List Pins),
    (s.phase = .idle ∨ s.phase = .absorb ∨ s.phase = .done) → 8 * m.length < 2 ^ 64 →
    s.host = messageInputs m ++ rest → (∀ p ∈ rest, p.rst = false ∧ p.cmdValid = true) →
    ∃ s', Host.Core.run core (2 + m.length + padN (bitLength m) + 115 * blockCount m) s = .next s' ∧
      s'.phase = .done ∧ s'.h = finalState m ∧ s'.host = rest

/-- R121, R127, R128: in DONE the 64 responses to RDHEX 0 to RDHEX 63 are the characters of Render(H). -/
def Obligations.ReadingTheDigestReturnsItsCharacters : Prop :=
  ∀ (s : State) (rest : List Pins), s.phase = .done → s.host = readDigestInputs ++ rest →
    ∀ k, k < 64 → ∃ s', Host.Core.run core (k + 1) s = .next s' ∧
      s'.rsp = (render s.h)[k]? ∧ s'.rsp ≠ none ∧ SameRegisters s' s

/-- R121 with R110: from any ready phase but FAULT, START, the bytes of any message of at most 2^61 − 1
bytes, and FINISH bring the core to DONE with `H = S_N`, and from there the 64 responses to RDHEX 0 to
RDHEX 63 are the characters of `Hash(m)`. -/
def Obligations.HostReadsTheDigestOfItsMessage : Prop :=
  ∀ (s : State) (m : List Byte) (rest : List Pins),
    (s.phase = .idle ∨ s.phase = .absorb ∨ s.phase = .done) → 8 * m.length < 2 ^ 64 →
    s.host = messageInputs m ++ readDigestInputs ++ rest →
    ∃ (n : Nat) (s' : State), Host.Core.run core n s = .next s' ∧ s'.phase = .done ∧ s'.h = finalState m ∧
      ∀ k, k < 64 → ∃ t : State, Host.Core.run core (k + 1) s' = .next t ∧
        t.rsp = (messageDigest m)[k]? ∧ t.rsp ≠ none

/-- R97, R120: from every busy state of the invariant, with no reset, the core is ready again after at most
302 steps. -/
def Obligations.EveryBusyRunEnds : Prop :=
  ∀ s : State, s.Inv → s.cmdReady = false → s.NoReset →
    ∃ n, n ≤ 302 ∧ ∃ s', Host.Core.run core n s = .next s' ∧ s'.cmdReady = true
end

