-- ==== Sys2Proof/Laws/State.lean ====
section
/-!
SUPPORT. One lemma per field of State per named update, true by rfl, so that no proof unfolds a record
update.
-/

namespace Sys2Proof.Machine

@[simp] theorem State.respond_h (s : State) (r : Byte) : (s.respond r).h = s.h := rfl
@[simp] theorem State.respond_v (s : State) (r : Byte) : (s.respond r).v = s.v := rfl
@[simp] theorem State.respond_w (s : State) (r : Byte) : (s.respond r).w = s.w := rfl
@[simp] theorem State.respond_buf (s : State) (r : Byte) : (s.respond r).buf = s.buf := rfl
@[simp] theorem State.respond_fill (s : State) (r : Byte) : (s.respond r).fill = s.fill := rfl
@[simp] theorem State.respond_len (s : State) (r : Byte) : (s.respond r).len = s.len := rfl
@[simp] theorem State.respond_t (s : State) (r : Byte) : (s.respond r).t = s.t := rfl
@[simp] theorem State.respond_padi (s : State) (r : Byte) : (s.respond r).padi = s.padi := rfl
@[simp] theorem State.respond_fin (s : State) (r : Byte) : (s.respond r).fin = s.fin := rfl
@[simp] theorem State.respond_phase (s : State) (r : Byte) : (s.respond r).phase = s.phase := rfl
@[simp] theorem State.respond_cause (s : State) (r : Byte) : (s.respond r).cause = s.cause := rfl
@[simp] theorem State.respond_fcmd (s : State) (r : Byte) : (s.respond r).fcmd = s.fcmd := rfl
@[simp] theorem State.respond_rsp (s : State) (r : Byte) : (s.respond r).rsp = some r := rfl
@[simp] theorem State.respond_host (s : State) (r : Byte) : (s.respond r).host = s.host := rfl
@[simp] theorem State.respond_resets (s : State) (r : Byte) : (s.respond r).resets = s.resets := rfl

@[simp] theorem raiseFault_h (c : Cause) (x : CmdWord) (s : State) : (raiseFault c x s).h = s.h := rfl
@[simp] theorem raiseFault_v (c : Cause) (x : CmdWord) (s : State) : (raiseFault c x s).v = s.v := rfl
@[simp] theorem raiseFault_w (c : Cause) (x : CmdWord) (s : State) : (raiseFault c x s).w = s.w := rfl
@[simp] theorem raiseFault_buf (c : Cause) (x : CmdWord) (s : State) : (raiseFault c x s).buf = s.buf := rfl
@[simp] theorem raiseFault_fill (c : Cause) (x : CmdWord) (s : State) : (raiseFault c x s).fill = s.fill := rfl
@[simp] theorem raiseFault_len (c : Cause) (x : CmdWord) (s : State) : (raiseFault c x s).len = s.len := rfl
@[simp] theorem raiseFault_t (c : Cause) (x : CmdWord) (s : State) : (raiseFault c x s).t = s.t := rfl
@[simp] theorem raiseFault_padi (c : Cause) (x : CmdWord) (s : State) : (raiseFault c x s).padi = s.padi := rfl
@[simp] theorem raiseFault_fin (c : Cause) (x : CmdWord) (s : State) : (raiseFault c x s).fin = s.fin := rfl
@[simp] theorem raiseFault_phase (c : Cause) (x : CmdWord) (s : State) : (raiseFault c x s).phase = .fault := rfl
@[simp] theorem raiseFault_cause (c : Cause) (x : CmdWord) (s : State) : (raiseFault c x s).cause = c := rfl
@[simp] theorem raiseFault_fcmd (c : Cause) (x : CmdWord) (s : State) : (raiseFault c x s).fcmd = x := rfl
@[simp] theorem raiseFault_rsp (c : Cause) (x : CmdWord) (s : State) : (raiseFault c x s).rsp = some 0x00 := rfl
@[simp] theorem raiseFault_host (c : Cause) (x : CmdWord) (s : State) : (raiseFault c x s).host = s.host := rfl
@[simp] theorem raiseFault_resets (c : Cause) (x : CmdWord) (s : State) : (raiseFault c x s).resets = s.resets := rfl

@[simp] theorem resetStep_h (s : State) : (resetStep s).h = Config.resetH s.resets := rfl
@[simp] theorem resetStep_v (s : State) : (resetStep s).v = Config.resetV s.resets := rfl
@[simp] theorem resetStep_w (s : State) : (resetStep s).w = Config.resetW s.resets := rfl
@[simp] theorem resetStep_buf (s : State) : (resetStep s).buf = Config.resetBuf s.resets := rfl
@[simp] theorem resetStep_fill (s : State) : (resetStep s).fill = Config.resetFill s.resets := rfl
@[simp] theorem resetStep_len (s : State) : (resetStep s).len = Config.resetLen s.resets := rfl
@[simp] theorem resetStep_t (s : State) : (resetStep s).t = Config.resetT s.resets := rfl
@[simp] theorem resetStep_padi (s : State) : (resetStep s).padi = Config.resetPadi s.resets := rfl
@[simp] theorem resetStep_fin (s : State) : (resetStep s).fin = Config.resetFin s.resets := rfl
@[simp] theorem resetStep_phase (s : State) : (resetStep s).phase = .idle := rfl
@[simp] theorem resetStep_cause (s : State) : (resetStep s).cause = .noFault := rfl
@[simp] theorem resetStep_fcmd (s : State) : (resetStep s).fcmd = 0 := rfl
@[simp] theorem resetStep_rsp (s : State) : (resetStep s).rsp = none := rfl
@[simp] theorem resetStep_host (s : State) : (resetStep s).host = s.host := rfl
@[simp] theorem resetStep_resets (s : State) : (resetStep s).resets = s.resets + 1 := rfl

@[simp] theorem State.startMessage_h (s : State) : (s.startMessage).h = romIV := rfl
@[simp] theorem State.startMessage_v (s : State) : (s.startMessage).v = s.v := rfl
@[simp] theorem State.startMessage_w (s : State) : (s.startMessage).w = s.w := rfl
@[simp] theorem State.startMessage_buf (s : State) : (s.startMessage).buf = s.buf := rfl
@[simp] theorem State.startMessage_fill (s : State) : (s.startMessage).fill = 0 := rfl
@[simp] theorem State.startMessage_len (s : State) : (s.startMessage).len = 0 := rfl
@[simp] theorem State.startMessage_t (s : State) : (s.startMessage).t = 0 := rfl
@[simp] theorem State.startMessage_padi (s : State) : (s.startMessage).padi = 0 := rfl
@[simp] theorem State.startMessage_fin (s : State) : (s.startMessage).fin = false := rfl
@[simp] theorem State.startMessage_phase (s : State) : (s.startMessage).phase = .absorb := rfl
@[simp] theorem State.startMessage_cause (s : State) : (s.startMessage).cause = s.cause := rfl
@[simp] theorem State.startMessage_fcmd (s : State) : (s.startMessage).fcmd = s.fcmd := rfl
@[simp] theorem State.startMessage_rsp (s : State) : (s.startMessage).rsp = s.rsp := rfl
@[simp] theorem State.startMessage_host (s : State) : (s.startMessage).host = s.host := rfl
@[simp] theorem State.startMessage_resets (s : State) : (s.startMessage).resets = s.resets := rfl

@[simp] theorem State.endMessage_h (s : State) : (s.endMessage).h = s.h := rfl
@[simp] theorem State.endMessage_v (s : State) : (s.endMessage).v = s.v := rfl
@[simp] theorem State.endMessage_w (s : State) : (s.endMessage).w = s.w := rfl
@[simp] theorem State.endMessage_buf (s : State) : (s.endMessage).buf = s.buf := rfl
@[simp] theorem State.endMessage_fill (s : State) : (s.endMessage).fill = s.fill := rfl
@[simp] theorem State.endMessage_len (s : State) : (s.endMessage).len = s.len := rfl
@[simp] theorem State.endMessage_t (s : State) : (s.endMessage).t = s.t := rfl
@[simp] theorem State.endMessage_padi (s : State) : (s.endMessage).padi = 0 := rfl
@[simp] theorem State.endMessage_fin (s : State) : (s.endMessage).fin = true := rfl
@[simp] theorem State.endMessage_phase (s : State) : (s.endMessage).phase = .pad := rfl
@[simp] theorem State.endMessage_cause (s : State) : (s.endMessage).cause = s.cause := rfl
@[simp] theorem State.endMessage_fcmd (s : State) : (s.endMessage).fcmd = s.fcmd := rfl
@[simp] theorem State.endMessage_rsp (s : State) : (s.endMessage).rsp = s.rsp := rfl
@[simp] theorem State.endMessage_host (s : State) : (s.endMessage).host = s.host := rfl
@[simp] theorem State.endMessage_resets (s : State) : (s.endMessage).resets = s.resets := rfl

@[simp] theorem State.loadWords_h (s : State) : (s.loadWords).h = s.h := rfl
@[simp] theorem State.loadWords_v (s : State) : (s.loadWords).v = s.v := rfl
@[simp] theorem State.loadWords_w (s : State) : (s.loadWords).w = toWords s.buf := rfl
@[simp] theorem State.loadWords_buf (s : State) : (s.loadWords).buf = s.buf := rfl
@[simp] theorem State.loadWords_fill (s : State) : (s.loadWords).fill = s.fill := rfl
@[simp] theorem State.loadWords_len (s : State) : (s.loadWords).len = s.len := rfl
@[simp] theorem State.loadWords_t (s : State) : (s.loadWords).t = 16 := rfl
@[simp] theorem State.loadWords_padi (s : State) : (s.loadWords).padi = s.padi := rfl
@[simp] theorem State.loadWords_fin (s : State) : (s.loadWords).fin = s.fin := rfl
@[simp] theorem State.loadWords_phase (s : State) : (s.loadWords).phase = .expand := rfl
@[simp] theorem State.loadWords_cause (s : State) : (s.loadWords).cause = s.cause := rfl
@[simp] theorem State.loadWords_fcmd (s : State) : (s.loadWords).fcmd = s.fcmd := rfl
@[simp] theorem State.loadWords_rsp (s : State) : (s.loadWords).rsp = s.rsp := rfl
@[simp] theorem State.loadWords_host (s : State) : (s.loadWords).host = s.host := rfl
@[simp] theorem State.loadWords_resets (s : State) : (s.loadWords).resets = s.resets := rfl

@[simp] theorem State.expandWord_h (s : State) (t : BitVec 6) : (s.expandWord t).h = s.h := rfl
@[simp] theorem State.expandWord_v (s : State) (t : BitVec 6) : (s.expandWord t).v = s.v := rfl
@[simp] theorem State.expandWord_w (s : State) (t : BitVec 6) : (s.expandWord t).w = expandAt s.w t := rfl
@[simp] theorem State.expandWord_buf (s : State) (t : BitVec 6) : (s.expandWord t).buf = s.buf := rfl
@[simp] theorem State.expandWord_fill (s : State) (t : BitVec 6) : (s.expandWord t).fill = s.fill := rfl
@[simp] theorem State.expandWord_len (s : State) (t : BitVec 6) : (s.expandWord t).len = s.len := rfl
@[simp] theorem State.expandWord_t (s : State) (t : BitVec 6) : (s.expandWord t).t = if t = 63 then 0 else t + 1 := rfl
@[simp] theorem State.expandWord_padi (s : State) (t : BitVec 6) : (s.expandWord t).padi = s.padi := rfl
@[simp] theorem State.expandWord_fin (s : State) (t : BitVec 6) : (s.expandWord t).fin = s.fin := rfl
@[simp] theorem State.expandWord_phase (s : State) (t : BitVec 6) : (s.expandWord t).phase = if t = 63 then .initv else s.phase := rfl
@[simp] theorem State.expandWord_cause (s : State) (t : BitVec 6) : (s.expandWord t).cause = s.cause := rfl
@[simp] theorem State.expandWord_fcmd (s : State) (t : BitVec 6) : (s.expandWord t).fcmd = s.fcmd := rfl
@[simp] theorem State.expandWord_rsp (s : State) (t : BitVec 6) : (s.expandWord t).rsp = s.rsp := rfl
@[simp] theorem State.expandWord_host (s : State) (t : BitVec 6) : (s.expandWord t).host = s.host := rfl
@[simp] theorem State.expandWord_resets (s : State) (t : BitVec 6) : (s.expandWord t).resets = s.resets := rfl

@[simp] theorem State.loadWorking_h (s : State) : (s.loadWorking).h = s.h := rfl
@[simp] theorem State.loadWorking_v (s : State) : (s.loadWorking).v = s.h := rfl
@[simp] theorem State.loadWorking_w (s : State) : (s.loadWorking).w = s.w := rfl
@[simp] theorem State.loadWorking_buf (s : State) : (s.loadWorking).buf = s.buf := rfl
@[simp] theorem State.loadWorking_fill (s : State) : (s.loadWorking).fill = s.fill := rfl
@[simp] theorem State.loadWorking_len (s : State) : (s.loadWorking).len = s.len := rfl
@[simp] theorem State.loadWorking_t (s : State) : (s.loadWorking).t = s.t := rfl
@[simp] theorem State.loadWorking_padi (s : State) : (s.loadWorking).padi = s.padi := rfl
@[simp] theorem State.loadWorking_fin (s : State) : (s.loadWorking).fin = s.fin := rfl
@[simp] theorem State.loadWorking_phase (s : State) : (s.loadWorking).phase = .round := rfl
@[simp] theorem State.loadWorking_cause (s : State) : (s.loadWorking).cause = s.cause := rfl
@[simp] theorem State.loadWorking_fcmd (s : State) : (s.loadWorking).fcmd = s.fcmd := rfl
@[simp] theorem State.loadWorking_rsp (s : State) : (s.loadWorking).rsp = s.rsp := rfl
@[simp] theorem State.loadWorking_host (s : State) : (s.loadWorking).host = s.host := rfl
@[simp] theorem State.loadWorking_resets (s : State) : (s.loadWorking).resets = s.resets := rfl

@[simp] theorem State.roundAt_h (s : State) (t : BitVec 6) : (s.roundAt t).h = s.h := rfl
@[simp] theorem State.roundAt_v (s : State) (t : BitVec 6) : (s.roundAt t).v = Machine.roundAt s.w s.v t := rfl
@[simp] theorem State.roundAt_w (s : State) (t : BitVec 6) : (s.roundAt t).w = s.w := rfl
@[simp] theorem State.roundAt_buf (s : State) (t : BitVec 6) : (s.roundAt t).buf = s.buf := rfl
@[simp] theorem State.roundAt_fill (s : State) (t : BitVec 6) : (s.roundAt t).fill = s.fill := rfl
@[simp] theorem State.roundAt_len (s : State) (t : BitVec 6) : (s.roundAt t).len = s.len := rfl
@[simp] theorem State.roundAt_t (s : State) (t : BitVec 6) : (s.roundAt t).t = if t = 63 then 0 else t + 1 := rfl
@[simp] theorem State.roundAt_padi (s : State) (t : BitVec 6) : (s.roundAt t).padi = s.padi := rfl
@[simp] theorem State.roundAt_fin (s : State) (t : BitVec 6) : (s.roundAt t).fin = s.fin := rfl
@[simp] theorem State.roundAt_phase (s : State) (t : BitVec 6) : (s.roundAt t).phase = if t = 63 then .fold else s.phase := rfl
@[simp] theorem State.roundAt_cause (s : State) (t : BitVec 6) : (s.roundAt t).cause = s.cause := rfl
@[simp] theorem State.roundAt_fcmd (s : State) (t : BitVec 6) : (s.roundAt t).fcmd = s.fcmd := rfl
@[simp] theorem State.roundAt_rsp (s : State) (t : BitVec 6) : (s.roundAt t).rsp = s.rsp := rfl
@[simp] theorem State.roundAt_host (s : State) (t : BitVec 6) : (s.roundAt t).host = s.host := rfl
@[simp] theorem State.roundAt_resets (s : State) (t : BitVec 6) : (s.roundAt t).resets = s.resets := rfl

@[simp] theorem State.foldBack_h (s : State) : (s.foldBack).h = addWords s.h s.v := rfl
@[simp] theorem State.foldBack_v (s : State) : (s.foldBack).v = s.v := rfl
@[simp] theorem State.foldBack_w (s : State) : (s.foldBack).w = s.w := rfl
@[simp] theorem State.foldBack_buf (s : State) : (s.foldBack).buf = s.buf := rfl
@[simp] theorem State.foldBack_fill (s : State) : (s.foldBack).fill = 0 := rfl
@[simp] theorem State.foldBack_len (s : State) : (s.foldBack).len = s.len := rfl
@[simp] theorem State.foldBack_t (s : State) : (s.foldBack).t = s.t := rfl
@[simp] theorem State.foldBack_padi (s : State) : (s.foldBack).padi = s.padi := rfl
@[simp] theorem State.foldBack_fin (s : State) : (s.foldBack).fin = s.fin := rfl
@[simp] theorem State.foldBack_phase (s : State) : (s.foldBack).phase = phaseAfterFold s.fin s.padi s.len := rfl
@[simp] theorem State.foldBack_cause (s : State) : (s.foldBack).cause = s.cause := rfl
@[simp] theorem State.foldBack_fcmd (s : State) : (s.foldBack).fcmd = s.fcmd := rfl
@[simp] theorem State.foldBack_rsp (s : State) : (s.foldBack).rsp = s.rsp := rfl
@[simp] theorem State.foldBack_host (s : State) : (s.foldBack).host = s.host := rfl
@[simp] theorem State.foldBack_resets (s : State) : (s.foldBack).resets = s.resets := rfl

@[simp] theorem State.advance_h (s : State) : (s.advance).h = s.h := rfl
@[simp] theorem State.advance_v (s : State) : (s.advance).v = s.v := rfl
@[simp] theorem State.advance_w (s : State) : (s.advance).w = s.w := rfl
@[simp] theorem State.advance_buf (s : State) : (s.advance).buf = s.buf := rfl
@[simp] theorem State.advance_fill (s : State) : (s.advance).fill = s.fill := rfl
@[simp] theorem State.advance_len (s : State) : (s.advance).len = s.len := rfl
@[simp] theorem State.advance_t (s : State) : (s.advance).t = s.t := rfl
@[simp] theorem State.advance_padi (s : State) : (s.advance).padi = s.padi := rfl
@[simp] theorem State.advance_fin (s : State) : (s.advance).fin = s.fin := rfl
@[simp] theorem State.advance_phase (s : State) : (s.advance).phase = s.phase := rfl
@[simp] theorem State.advance_cause (s : State) : (s.advance).cause = s.cause := rfl
@[simp] theorem State.advance_fcmd (s : State) : (s.advance).fcmd = s.fcmd := rfl
@[simp] theorem State.advance_rsp (s : State) : (s.advance).rsp = none := rfl
@[simp] theorem State.advance_host (s : State) : (s.advance).host = if s.holds then s.host else s.host.tail := rfl
@[simp] theorem State.advance_resets (s : State) : (s.advance).resets = s.resets := rfl

end Sys2Proof.Machine
end

