-- ==== Sys2Proof/Laws/Ops.lean ====
section
/-!
SUPPORT. One lemma per shared operation: everything it can answer. Later proofs cite these instead of
unfolding the operations.
-/

namespace Sys2Proof.Machine

/-! ### The sequencer word -/

@[simp] theorem phaseField_useq (s : State) : phaseField s.useq = s.phase.code := by
  unfold phaseField State.useq
  ext i hi
  rw [BitVec.getElem_extractLsb']
  refine (BitVec.getLsbD_append (x := s.phase.code) (y := s.t)).trans ?_
  simp [BitVec.getLsbD_eq_getElem hi, show ¬ (6 + i < 6) by omega]

@[simp] theorem tField_useq (s : State) : tField s.useq = s.t := by
  unfold tField State.useq
  ext i hi
  rw [BitVec.getElem_extractLsb']
  refine (BitVec.getLsbD_append (x := s.phase.code) (y := s.t)).trans ?_
  simp [hi]

theorem phaseOfCode_code (p : Phase) : phaseOfCode p.code = some p := by
  cases p <;> decide

/-- What the sequencer word of a state selects, phase by phase (R63, R65). -/
theorem decodeUseq_useq (s : State) :
    decodeUseq s.useq =
      match s.phase with
      | .idle => .rejected .readyPhase
      | .absorb => .rejected .readyPhase
      | .pad => if s.t = 0 then .instr .padb else .rejected .unreachableUseq
      | .load => if s.t = 0 then .instr .ldw else .rejected .unreachableUseq
      | .expand => if 16 ≤ s.t.toNat then .instr (.xpd s.t) else .rejected .unreachableUseq
      | .initv => if s.t = 0 then .instr .ldv else .rejected .unreachableUseq
      | .round => .instr (.rnd s.t)
      | .fold => if s.t = 0 then .instr .fld else .rejected .unreachableUseq
      | .done => .rejected .readyPhase
      | .fault => .rejected .readyPhase := by
  unfold decodeUseq
  simp only [phaseField_useq, tField_useq]
  cases s.phase <;> simp [Phase.code]

theorem selects_padb (s : State) : decodeUseq s.useq = .instr .padb ↔ s.phase = .pad ∧ s.t = 0 := by
  rw [decodeUseq_useq]
  cases s.phase <;> simp <;> split <;> simp_all

theorem selects_ldw (s : State) : decodeUseq s.useq = .instr .ldw ↔ s.phase = .load ∧ s.t = 0 := by
  rw [decodeUseq_useq]
  cases s.phase <;> simp <;> split <;> simp_all

theorem selects_xpd (s : State) (t : BitVec 6) :
    decodeUseq s.useq = .instr (.xpd t) ↔ s.phase = .expand ∧ s.t = t ∧ 16 ≤ t.toNat := by
  rw [decodeUseq_useq]
  cases s.phase <;> simp <;> split <;> simp_all <;> rintro rfl <;> omega

theorem selects_ldv (s : State) : decodeUseq s.useq = .instr .ldv ↔ s.phase = .initv ∧ s.t = 0 := by
  rw [decodeUseq_useq]
  cases s.phase <;> simp <;> split <;> simp_all

theorem selects_rnd (s : State) (t : BitVec 6) :
    decodeUseq s.useq = .instr (.rnd t) ↔ s.phase = .round ∧ s.t = t := by
  rw [decodeUseq_useq]
  cases s.phase <;> simp <;> split <;> simp_all

theorem selects_fld (s : State) : decodeUseq s.useq = .instr .fld ↔ s.phase = .fold ∧ s.t = 0 := by
  rw [decodeUseq_useq]
  cases s.phase <;> simp <;> split <;> simp_all

/-! ### Append -/

theorem memWrite1_of_lt {b : Vector Byte 64} {a : BitVec 7} {x : Byte} (ok : a.toNat < 64) :
    memWrite1 b a x = some (b.set a.toNat x ok) := by
  simp [memWrite1, ok]

theorem memWrite1_of_ge {b : Vector Byte 64} {a : BitVec 7} {x : Byte} (bad : 64 ≤ a.toNat) :
    memWrite1 b a x = none := by
  simp [memWrite1, Nat.not_lt.mpr bad]

/-- Append where its precondition holds (R86). -/
theorem append_of_lt {s : State} {b : Byte} (ok : s.fill.toNat < 64) :
    s.append b = some
      { s with
        buf := s.buf.set s.fill.toNat b ok
        fill := s.fill + 1
        phase := phaseAfterAppend s.fill s.phase } := by
  simp [State.append, memWrite1_of_lt ok]

/-- Append where its precondition fails. -/
theorem append_of_ge {s : State} {b : Byte} (bad : 64 ≤ s.fill.toNat) : s.append b = none := by
  simp [State.append, memWrite1_of_ge bad]

/-- Everything Append can answer. -/
theorem append_eq_some {s s' : State} {b : Byte} :
    s.append b = some s' ↔
      ∃ ok : s.fill.toNat < 64, s' =
        { s with
          buf := s.buf.set s.fill.toNat b ok
          fill := s.fill + 1
          phase := phaseAfterAppend s.fill s.phase } := by
  rcases Nat.lt_or_ge s.fill.toNat 64 with ok | bad
  · simp [append_of_lt ok, ok, eq_comm]
  · simp [append_of_ge bad, Nat.not_lt.mpr bad]

/-! ### The padder -/

theorem padK_le (len : BitVec 64) : padK len ≤ 63 := by
  unfold padK
  omega

/-- SPLIT gives `w/8` bytes (R75). -/
theorem split_length {w : Nat} (x : BitVec w) (ok : PrimitiveWidth w) : (split x ok).length = w / 8 := by
  simp [split]

/-- `PadByte(j)` exists exactly for `j < PADN` (R95). -/
theorem padByte_isSome (len : BitVec 64) (j : Nat) : (padByte len j).isSome = true ↔ j < padN len := by
  unfold padByte padN
  split
  · simp
    omega
  · split
    · simp
      omega
    · simp [split_length]
      omega

/-- Pad where the bit length has a 64-bit encoding (R90). -/
theorem pad_of_encodable {m : List Byte} (ok : 8 * m.length < 2 ^ 64) :
    pad m = m ++ [0x80] ++ List.replicate (padK (bitLength m)) 0x00 ++ split (bitLength m) :=
  if_pos ok

/-- A byte of a whole block of a padded message is that byte of the message (R85). -/
theorem blockAt_getElem {p : List Byte} {q j : Nat} (inBlock : j < 64) (inMessage : 64 * q + j < p.length) :
    (blockAt p q)[j] = p[64 * q + j] := by
  simp [blockAt, List.getD_eq_getElem?_getD, inMessage]

/-! ### Command steps and micro-operations -/

/-- Everything a command step can answer (R113). -/
theorem commandStep_cases (i : Instr) (x : CmdWord) (body : State → Result) (s : State) :
    (s.cmdReady = false ∧ commandStep i x body s = .next s) ∨
    (s.phase = .fault ∧ commandStep i x body s = .next (s.respond 0x00)) ∨
    (s.cmdReady = true ∧ s.phase ≠ .fault ∧ legalIn i s.phase = true ∧ commandStep i x body s = body s) ∨
    (s.cmdReady = true ∧ s.phase ≠ .fault ∧ legalIn i s.phase = false ∧
      commandStep i x body s = .next (raiseFault .wrongPhase x s)) := by
  unfold commandStep
  cases hr : s.cmdReady
  · exact .inl ⟨rfl, by simp⟩
  · by_cases hf : s.phase = .fault
    · exact .inr (.inl ⟨hf, by simp [hf]⟩)
    · cases hl : legalIn i s.phase
      · exact .inr (.inr (.inr ⟨rfl, hf, rfl, by simp [hf]⟩))
      · exact .inr (.inr (.inl ⟨rfl, hf, rfl, by simp [hf]⟩))

/-- A legal command runs its own rule. -/
theorem commandStep_of_legal {i : Instr} {x : CmdWord} {body : State → Result} {s : State}
    (h : legalIn i s.phase = true) (hr : s.cmdReady = true) (hf : s.phase ≠ .fault) :
    commandStep i x body s = body s := by
  simp [commandStep, h, hr, hf]

/-- A selected micro-operation runs its own rule (R63). -/
theorem microStep_of_selected {i : Instr} {body : State → Result} {s : State}
    (h : decodeUseq s.useq = .instr i) : microStep i body s = body s := by
  simp [microStep, h]

/-- A micro-operation that answers a next state was selected. -/
theorem microStep_next {i : Instr} {body : State → Result} {s s' : State}
    (h : microStep i body s = .next s') : decodeUseq s.useq = .instr i ∧ body s = .next s' := by
  unfold microStep at h
  split at h
  · exact ⟨‹_›, h⟩
  · cases h

/-- Everything a reserved word's step can answer (R113, R64). -/
theorem rejectCommand_cases (x : CmdWord) (s : State) :
    (s.cmdReady = false ∧ rejectCommand x s = s) ∨
    (s.phase = .fault ∧ rejectCommand x s = s.respond 0x00) ∨
    (s.cmdReady = true ∧ s.phase ≠ .fault ∧ rejectCommand x s = raiseFault .illegalCommand x s) := by
  unfold rejectCommand
  cases hr : s.cmdReady
  · exact .inl ⟨rfl, by simp⟩
  · by_cases hf : s.phase = .fault
    · exact .inr (.inl ⟨hf, by simp [hf]⟩)
    · exact .inr (.inr ⟨rfl, hf, by simp [hf]⟩)

/-! ### The step -/

/-- Everything a step that answers a next state can be (R13, R119). -/
theorem step_cases {s s' : State} (h : step s = .next s') :
    (nextAction s = .reset ∧ s' = resetStep s.advance) ∨
    (nextAction s = .quiescent ∧ s' = s.advance) ∨
    (∃ i, nextAction s = .perform i ∧ exec i s.advance = .next s') ∨
    (∃ x, nextAction s = .reject x ∧ s' = rejectCommand x s.advance) := by
  unfold step at h
  split at h
  · next e => exact .inl ⟨e, by cases h; rfl⟩
  · next e => exact .inr (.inl ⟨e, by cases h; rfl⟩)
  · next i e => exact .inr (.inr (.inl ⟨i, e, h⟩))
  · next x e => exact .inr (.inr (.inr ⟨x, e, by cases h; rfl⟩))
  · cases h

/-- When the enabled step performs `i`: a command taken from the pins, or the micro-operation the
sequencer word selects. -/
theorem nextAction_perform {s : State} {i : Instr} :
    nextAction s = .perform i ↔
      s.pins.rst = false ∧
      ((s.cmdReady = true ∧ s.pins.cmdValid = true ∧ decodeCmd s.pins.cmd = .instr i) ∨
       (s.cmdReady = false ∧ decodeUseq s.useq = .instr i)) := by
  unfold nextAction
  cases s.pins.rst <;> cases s.cmdReady <;> cases s.pins.cmdValid <;>
    cases decodeCmd s.pins.cmd <;> cases decodeUseq s.useq <;> simp

end Sys2Proof.Machine
end

