-- ==== Sys2Proof/Laws/PerInstr.lean ====
section
/-!
SUPPORT. The per-instruction family `TableRow`: the encoded word of a well-formed instruction is a word
of the instruction's own row of spec/opcode_table.json (match, mask and format of spec/30_encoding.md
R62 and R63, and the constraint on XPD's operand).
-/

namespace Sys2Proof.Laws.TableRow

/-- The word `e` is a command word with `e AND mask = match` (R62). -/
def cmdRow (matchWord mask : CmdWord) : Encoding → Prop
  | .cmd c => c &&& mask = matchWord
  | .useq _ => False

/-- The word `e` is a sequencer word with `e AND mask = match` (R63). -/
def useqRow (matchWord mask : UseqWord) : Encoding → Prop
  | .cmd _ => False
  | .useq u => u &&& mask = matchWord

/-- The row of each instruction, as the table gives it. -/
def row : Instr → Encoding → Prop
  | .nop => cmdRow 0x000 0xFFF
  | .start => cmdRow 0x100 0xFFF
  | .data _ => cmdRow 0x200 0xF00
  | .finish => cmdRow 0x300 0xFFF
  | .rdhex _ => cmdRow 0x400 0xFC0
  | .padb => useqRow 0x080 0x3FF
  | .ldw => useqRow 0x0C0 0x3FF
  | .xpd _ => fun e => useqRow 0x100 0x3C0 e ∧ ∃ u, e = .useq u ∧ 16 ≤ (u &&& 0x03F).toNat
  | .ldv => useqRow 0x140 0x3FF
  | .rnd _ => useqRow 0x180 0x3C0
  | .fld => useqRow 0x1C0 0x3FF

/-- A well-formed instruction is encoded in its own row. -/
def Statement (i : Instr) : Prop := WellFormed i → row i (encode i)

theorem nop : Statement .nop := fun _ => rfl

theorem start : Statement .start := fun _ => rfl

theorem data (b : Byte) : Statement (.data b) := fun _ => by
  show (0x200 + b.setWidth 12) &&& 0xF00 = (0x200 : CmdWord)
  revert b
  decide +kernel

theorem finish : Statement .finish := fun _ => rfl

theorem rdhex (i : BitVec 6) : Statement (.rdhex i) := fun _ => by
  show (0x400 + i.setWidth 12) &&& 0xFC0 = (0x400 : CmdWord)
  revert i
  decide +kernel

theorem padb : Statement .padb := fun _ => rfl

theorem ldw : Statement .ldw := fun _ => rfl

theorem xpd (t : BitVec 6) : Statement (.xpd t) := fun wf => by
  have range : 16 ≤ t.toNat := of_decide_eq_true wf
  have field : (0x100 + t.setWidth 10) &&& 0x3C0 = (0x100 : UseqWord) ∧
      ((0x100 + t.setWidth 10) &&& (0x03F : UseqWord)).toNat = t.toNat := by
    revert t
    decide +kernel
  exact ⟨field.1, _, rfl, by rw [field.2]; exact range⟩

theorem ldv : Statement .ldv := fun _ => rfl

theorem rnd (t : BitVec 6) : Statement (.rnd t) := fun _ => by
  show (0x180 + t.setWidth 10) &&& 0x3C0 = (0x180 : UseqWord)
  revert t
  decide +kernel

theorem fld : Statement .fld := fun _ => rfl

end Sys2Proof.Laws.TableRow
end

