-- ==== Sys2Proof/Tests/Slice0.lean ====
section
/-!
SUPPORT. Tests and witnesses. Expected values come from the spec's encoding tables, rule texts and the
vectors of spec/95_test_vectors.md, named at each test. A `witness_` theorem shows a state and operands
that meet all hypotheses of the statement it is named after.
-/

namespace Sys2Proof.Tests

open Sys2Proof Sys2Proof.Machine

/-! ### Helpers -/

/-- The outcome is a next state of which `p` holds. -/
def nextIs (r : Result) (p : State → Bool) : Bool :=
  match r with
  | .next s => p s
  | .fault _ => false
  | .refused _ => false

/-- The reset state with the phase `p`. -/
def inPhase (p : Phase) : State := { State.reset with phase := p }

/-- The host presents `c` in phase `p`. -/
def presenting (p : Phase) (c : CmdWord) : State := { inPhase p with host := [present c] }

/-- The host asserts reset in phase `p`, a command beside it. -/
def resetting (p : Phase) : State :=
  { inPhase p with host := [{ rst := true, cmdValid := true, cmd := 0x100 }] }

/-- In phase FAULT after an illegal command. -/
def faulted : State := { inPhase .fault with cause := .illegalCommand, fcmd := 0x001 }

/-- Absorbing, after `n` bytes. -/
def absorbing (n : Nat) : State :=
  { inPhase .absorb with len := BitVec.ofNat 64 (8 * n), fill := BitVec.ofNat 7 (n % 64) }

/-- Padding a message of `n` bytes, `j` pad bytes already emitted. -/
def padding (n j : Nat) : State :=
  { inPhase .pad with
    len := BitVec.ofNat 64 (8 * n), fill := BitVec.ofNat 7 ((n + j) % 64), fin := true, padi := BitVec.ofNat 7 j }

/-- In one of the phases LOAD to FOLD of the only block of "abc", at index `t`. -/
def compressing (p : Phase) (t : BitVec 6) : State :=
  { inPhase p with len := 24, fill := 64, fin := true, padi := 61, t := t }

/-- The block of "abc" (R88, R96). -/
def abcBlock : Vector Byte 64 :=
  ((((Vector.replicate 64 0).set 0 0x61).set 1 0x62).set 2 0x63).set 3 0x80 |>.set 63 0x18

/-! ### Well-formedness: the one check, and the value at its edge -/

theorem test_wellFormed_refuses_xpd_15 : ¬ WellFormed (.xpd 15) := by decide

theorem test_wellFormed_accepts_xpd_16 : WellFormed (.xpd 16) := by decide

/-! ### Decoding: words written out bit by bit from R62 and R63 -/

theorem test_decode_nop : decode (.cmd 0b000000000000) = .instr .nop := by decide
theorem test_decode_start : decode (.cmd 0b000100000000) = .instr .start := by decide
theorem test_decode_data : decode (.cmd 0b001010000001) = .instr (.data 0b10000001) := by decide
theorem test_decode_finish : decode (.cmd 0b001100000000) = .instr .finish := by decide
theorem test_decode_rdhex : decode (.cmd 0b010000100001) = .instr (.rdhex 0b100001) := by decide
theorem test_decode_padb : decode (.useq 0b0010000000) = .instr .padb := by decide
theorem test_decode_ldw : decode (.useq 0b0011000000) = .instr .ldw := by decide
theorem test_decode_xpd : decode (.useq 0b0100010001) = .instr (.xpd 0b010001) := by decide
theorem test_decode_ldv : decode (.useq 0b0101000000) = .instr .ldv := by decide
theorem test_decode_rnd : decode (.useq 0b0110111111) = .instr (.rnd 0b111111) := by decide
theorem test_decode_fld : decode (.useq 0b0111000000) = .instr .fld := by decide

/-- The edges of the reserved ranges of R64 are refused. -/
theorem test_decode_reserved_edges :
    [0x001, 0x0FF, 0x101, 0x1FF, 0x301, 0x3FF, 0x440, 0x4FF, 0x500, 0xFFF].all
      (fun c => decodeCmd c == .rejected .reservedCommand) = true := by decide

/-- The unreachable words of R65 are refused: XPD below 16, a phase with an index it does not have, a
phase code above 9. -/
theorem test_decode_unreachable :
    [0b0100001111, 0b0010000001, 0b0011000001, 0b0101000001, 0b0111000001, 0b1010000000, 0b1111111111].all
      (fun u => decodeUseq u == .rejected .unreachableUseq) = true := by decide

/-! ### Primitives: the examples of R71 to R81 -/

theorem test_rotr : rotr (0x12345678 : Word) 4 = 0x81234567 ∧ rotr (0x12345678 : Word) 36 = 0x81234567 := by
  decide

theorem test_rotl : rotl (0x12345678 : Word) 4 = 0x23456781 ∧ rotl (0x1234 : BitVec 16) 20 = 0x2341 := by
  decide

theorem test_shr : shr3 0xFFFFFFFF = 0x1FFFFFFF ∧ shr10 0xFFFFFFFF = 0x003FFFFF := by decide

theorem test_split : split (0x12345678 : Word) = [0x12, 0x34, 0x56, 0x78] ∧
    split (0x18 : BitVec 64) = [0, 0, 0, 0, 0, 0, 0, 0x18] := by decide

theorem test_ch : ch 0x7A4FCEB7 0x573423E5 0x1F1BC793 = 0x571403A5 := by decide
theorem test_maj : maj 0x6A09E667 0xBB67AE85 0x3C6EF372 = 0x3A6FE667 := by decide
theorem test_bsig0 : bsig0 0xC7DE33C0 = 0xD73EB11E := by decide
theorem test_bsig1 : bsig1 0x510E527F = 0x3587272B := by decide
theorem test_ssig0 : ssig0 0x00000018 = 0x30060003 ∧ ssig0 0x80000000 = 0x11002000 := by decide
theorem test_ssig1 : ssig1 0x61626380 = 0x7DA86405 ∧ ssig1 0x80000000 = 0x00205000 := by decide

/-- The examples of R94. -/
theorem test_padding_counts :
    [(0, 55), (24, 52), (440, 0), (448, 63), (504, 56), (512, 55)].all
      (fun p => padK (BitVec.ofNat 64 p.1) == p.2) = true := by decide

/-! ### Instructions -/

/-- R115's example. -/
theorem test_nop : nextIs (exec .nop (absorbing 3))
    (fun s => s.fill == 3 && s.phase == .absorb && s.rsp == some 0x00) = true := by decide +kernel

/-- R116's example, after reset. -/
theorem test_start : nextIs (exec .start State.reset)
    (fun s => s.h[0] == 0x6A09E667 && s.h[7] == 0x5BE0CD19 && s.len == 0 && s.fill == 0 &&
      s.status == 0x11) = true := by decide +kernel

/-- R117's example. -/
theorem test_data : nextIs (exec (.data 0x61) (absorbing 0))
    (fun s => s.buf[0] == 0x61 && s.fill == 1 && s.len == 8 && s.phase == .absorb) = true := by decide +kernel

/-- R86: the 64th byte completes the block. -/
theorem test_data_64th_byte : nextIs (exec (.data 0x18) (absorbing 63))
    (fun s => s.buf[63] == 0x18 && s.fill == 64 && s.len == 512 && s.phase == .load) = true := by decide +kernel

/-- R118's example. -/
theorem test_finish : nextIs (exec .finish (absorbing 3))
    (fun s => s.fin && s.padi == 0 && s.phase == .pad && s.status == 0x02 && s.fill == 3) = true := by
  decide +kernel

/-- R128's example: `H[0] = BA7816BF`, index 0 and 7. -/
theorem test_rdhex_first_word :
    [(0, 0x62), (7, 0x66)].all (fun p =>
      nextIs (exec (.rdhex (BitVec.ofNat 6 p.1)) { inPhase .done with h := State.reset.h.set 0 0xBA7816BF })
        (fun s => s.rsp == some (BitVec.ofNat 8 p.2))) = true := by decide +kernel

/-- R128's example: `H[7] = F20015AD`, index 63. -/
theorem test_rdhex_last_digit :
    nextIs (exec (.rdhex 63) { inPhase .done with h := State.reset.h.set 7 0xF20015AD })
      (fun s => s.rsp == some 0x64 && s.phase == .done) = true := by decide +kernel

/-- R96's example: the first pad byte of "abc". -/
theorem test_padb_first : nextIs (exec .padb (padding 3 0))
    (fun s => s.buf[3] == 0x80 && s.fill == 4 && s.padi == 1 && s.len == 24 && s.phase == .pad) = true := by
  decide +kernel

/-- R96's example: the last pad byte of "abc". -/
theorem test_padb_last : nextIs (exec .padb (padding 3 60))
    (fun s => s.buf[63] == 0x18 && s.fill == 64 && s.padi == 61 && s.phase == .load) = true := by decide +kernel

/-- R88's example, and the zeros of R87. -/
theorem test_ldw : nextIs (exec .ldw { compressing .load 0 with buf := abcBlock })
    (fun s => s.w[0] == 0x61626380 && s.w[15] == 0x00000018 && s.w[63] == 0 && s.t == 16 &&
      s.phase == .expand) = true := by decide +kernel

/-- R100's corner case (a): four words of ones. -/
theorem test_xpd_wraps :
    nextIs (exec (.xpd 16) { compressing .expand 16 with w := Vector.replicate 64 0xFFFFFFFF })
      (fun s => s.w[16] == 0x203FFFFC && s.w[17] == 0xFFFFFFFF && s.t == 17 && s.phase == .expand) = true := by
  decide +kernel

/-- R100's example XPD 18 of "abc": it reads the expanded word `W[16]`. -/
theorem test_xpd_18 :
    nextIs (exec (.xpd 18) { compressing .expand 18 with w := State.reset.w.set 16 0x61626380 })
      (fun s => s.w[18] == 0x7DA86405) = true := by decide +kernel

/-- R106's example. -/
theorem test_ldv : nextIs (exec .ldv { compressing .initv 0 with h := romIV })
    (fun s => s.v[0] == 0x6A09E667 && s.v[7] == 0x5BE0CD19 && s.t == 0 && s.phase == .round) = true := by
  decide +kernel

/-- R107's example: round 0 of "abc". -/
theorem test_rnd_0 :
    nextIs (exec (.rnd 0) { compressing .round 0 with v := romIV, w := State.reset.w.set 0 0x61626380 })
      (fun s => s.v == #v[0x5D6AEBCD, 0x6A09E667, 0xBB67AE85, 0x3C6EF372, 0xFA2A4622, 0x510E527F, 0x9B05688C,
        0x1F83D9AB] && s.t == 1 && s.phase == .round) = true := by decide +kernel

/-- R107: the last round leaves for FOLD. -/
theorem test_rnd_63 : nextIs (exec (.rnd 63) (compressing .round 63))
    (fun s => s.t == 0 && s.phase == .fold) = true := by decide +kernel

/-- R108's example: the only block of "abc". -/
theorem test_fld : nextIs (exec .fld { compressing .fold 0 with
      h := romIV, v := #v[0x506E3058, 0, 0, 0, 0, 0, 0, 0x961F4894] })
    (fun s => s.h[0] == 0xBA7816BF && s.h[7] == 0xF20015AD && s.fill == 0 && s.phase == .done) = true := by
  decide +kernel

/-- R108's corner cases (a) and (b). -/
theorem test_fld_goes_on :
    nextIs (exec .fld { compressing .fold 0 with fin := false }) (fun s => s.phase == .absorb) = true ∧
    nextIs (exec .fld { compressing .fold 0 with padi := 60 }) (fun s => s.phase == .pad) = true := by
  decide +kernel

/-! ### Steps -/

/-- R133: what a fault leaves on the pins. -/
theorem test_step_illegal_command : nextIs (step (presenting .idle 0x440))
    (fun s => s.phase == .fault && s.causePins == 1 && s.fcmdPins == 0x440 && s.status == 0x59 &&
      s.rsp == some 0x00) = true := by decide +kernel

/-- R134: a second bad command does not overwrite the first fault, and START does not leave FAULT. -/
theorem test_step_fault_keeps : [0xFFF, 0x100].all (fun c =>
    nextIs (step { faulted with host := [present c] })
      (fun s => s.phase == .fault && s.causePins == 1 && s.fcmdPins == 0x001)) = true := by decide +kernel

/-- R147: a command presented while the core is busy stays presented. -/
theorem test_step_holds : nextIs (step (presenting .initv 0x100))
    (fun s => s.host == [present 0x100] && s.phase == .round && s.rsp == none) = true := by decide +kernel

/-- R144, 93 U13: reset wins over the command beside it. -/
theorem test_step_reset : nextIs (step (resetting .round))
    (fun s => s.phase == .idle && s.causePins == 0 && s.rsp == none) = true := by decide +kernel

/-! ### The words the host asks for -/

theorem test_table_words :
    decodeTableWord 16 0x100 = some .start ∧ decodeTableWord 12 0x43F = some (.rdhex 63) ∧
    decodeTableWord 16 0x110 = some (.xpd 16) ∧ decodeTableWord 10 0x1BF = some (.rnd 63) ∧
    decodeTableWord 16 0x0C0 = some .ldw ∧ decodeTableWord 12 0x500 = none := by decide

theorem test_placed_word_is_next :
    nextAction (State.reset.withFetchWord 16 0x261) = .perform (.data 0x61) ∧
    nextAction (State.reset.withFetchWord 16 0x0C0) = .perform .ldw := by decide

/-! ### Witnesses: encodings and steps -/

theorem witness_DecodeOfEncodeIsIdentity : WellFormed (.xpd 16) ∧ WellFormed (.xpd 63) ∧ WellFormed (.data 255) := by
  decide

theorem witness_EncodeOfDecodeIsIdentity :
    decode (.useq 0x13F) = .instr (.xpd 63) ∧ decode (.cmd 0x43F) = .instr (.rdhex 63) := by decide

theorem witness_PlacedInstructionIsPerformedNext : WellFormed .start ∧ WellFormed (.xpd 63) := by decide

/-- A reserved word in each of the four ready phases. -/
theorem witness_ReservedCommandWordsFault :
    [Phase.idle, .absorb, .done, .fault].all (fun p =>
      let s := presenting p 0x001
      !s.pins.rst && s.pins.cmdValid && decodeCmd s.pins.cmd == .rejected .reservedCommand && s.phase == p) = true := by
  decide

theorem witness_SequencerWordSelectsMicroOperation_ready : (inPhase .done).cmdReady = true := by decide

theorem witness_SequencerWordSelectsMicroOperation_busy :
    (inPhase .load).pins.rst = false ∧ (inPhase .load).cmdReady = false := by decide

theorem inv_compressing_load : (compressing .load 0).Inv :=
  ⟨⟨rfl, rfl⟩, ⟨by decide, rfl, by decide, fun _ => by decide⟩, rfl⟩

theorem witness_SequencerWordSelectsMicroOperation_inv :
    (compressing .load 0).Inv ∧ (compressing .load 0).cmdReady = false := ⟨inv_compressing_load, rfl⟩

/-- Both kinds of step: a command taken from the pins, and a micro-operation. -/
theorem witness_StepRunsTheDecodedInstruction :
    ((presenting .idle 0x100).pins.rst = false ∧ (presenting .idle 0x100).cmdReady = true ∧
      (presenting .idle 0x100).pins.cmdValid = true ∧
      decode (.cmd (presenting .idle 0x100).pins.cmd) = .instr .start) ∧
    ((presenting .load 0x100).pins.rst = false ∧ (presenting .load 0x100).cmdReady = false ∧
      decode (.useq (presenting .load 0x100).useq) = .instr .ldw) := by decide

/-- The five cases, in the order of the statement: reset, a legal and a reserved command, quiescent, a
micro-operation and an unreachable word. -/
theorem witness_ExactlyOneAgentMoves :
    (resetting .fault).pins.rst = true ∧
    nextAction (presenting .absorb 0x300) = .perform .finish ∧
    nextAction (presenting .absorb 0x301) = .reject 0x301 ∧
    nextAction (inPhase .done) = .quiescent ∧
    nextAction (inPhase .round) = .perform (.rnd 0) ∧
    nextAction (inPhase .expand) = .unreachable := by decide

theorem witness_HeldCommandChangesNothing :
    (presenting .initv 0x100).pins.rst = false ∧ (presenting .initv 0x100).pins.cmdValid = true ∧
    (presenting .initv 0x100).cmdReady = false ∧ ∃ t, step (presenting .initv 0x100) = .next t :=
  ⟨rfl, rfl, rfl, _, rfl⟩

/-- No response: a held command. A response: an RDHEX in DONE, a NOP in IDLE. -/
theorem witness_OnlyAcceptedCommandsRespond :
    (∃ t, step (presenting .initv 0x100) = .next t ∧ (presenting .initv 0x100).cmdReady = false) ∧
    (∃ t, step (presenting .done 0x43F) = .next t ∧
      decodeCmd (presenting .done 0x43F).pins.cmd = .instr (.rdhex 63)) ∧
    (∃ t, step (presenting .idle 0x000) = .next t ∧ (presenting .idle 0x000).phase ≠ .done) :=
  ⟨⟨_, rfl, rfl⟩, ⟨_, rfl, rfl⟩, ⟨_, rfl, by decide⟩⟩

theorem witness_PhaseFollowsTheTransitionTable :
    nextIs (step (padding 3 60)) (fun s => s.phase == .load) = true ∧
    nextIs (step { absorbing 63 with host := [present 0x218] }) (fun s => s.phase == .load) = true := by
  decide +kernel

/-! ### Witnesses: commands -/

/-- Each of the five phases or kinds of phase the statement speaks of. -/
theorem witness_NopChangesNoRegister :
    (inPhase .idle).phase = .idle ∧ (absorbing 3).phase = .absorb ∧ (inPhase .done).phase = .done ∧
    faulted.phase = .fault ∧ (padding 3 0).cmdReady = false := by decide

theorem witness_StartBeginsAMessage :
    (∃ t, exec .start (absorbing 3) = .next t ∧ (absorbing 3).phase = .absorb) ∧
    faulted.phase = .fault ∧ (padding 3 0).cmdReady = false := ⟨⟨_, rfl, rfl⟩, rfl, rfl⟩

/-- From IDLE and from DONE, with different leftovers. -/
theorem witness_StartForgetsThePast :
    (inPhase .idle).phase = .idle ∧ (padding 3 61).len = 24 ∧
    ({ padding 3 61 with phase := .done } : State).phase = .done ∧
    (inPhase .idle).cause = (padding 3 61).cause ∧ (inPhase .idle).fcmd = (padding 3 61).fcmd ∧
    (inPhase .idle).host = (padding 3 61).host := by decide

/-- At fill level 0 and 63, and with the greatest length that still takes a byte. -/
theorem witness_DataAppendsOneByteOrFaults_ok :
    ((absorbing 0).fill.toNat < 64 ∧ (absorbing 0).phase = .absorb ∧ (absorbing 0).len.toNat ≠ 2 ^ 64 - 8) ∧
    ((absorbing 63).fill.toNat < 64 ∧ (absorbing 63).phase = .absorb ∧ (absorbing 63).len.toNat ≠ 2 ^ 64 - 8) ∧
    ((absorbing (2 ^ 61 - 2)).fill.toNat < 64 ∧ (absorbing (2 ^ 61 - 2)).len.toNat = 2 ^ 64 - 16) := by decide

/-- The other clauses: one byte too many, outside ABSORB, in FAULT, busy. -/
theorem witness_DataAppendsOneByteOrFaults_rest :
    ((absorbing (2 ^ 61 - 1)).phase = .absorb ∧ (absorbing (2 ^ 61 - 1)).len.toNat = 2 ^ 64 - 8) ∧
    (inPhase .idle).phase = .idle ∧ faulted.phase = .fault ∧ (padding 3 0).cmdReady = false := by decide

theorem witness_FinishStartsThePadder :
    (absorbing 3).phase = .absorb ∧ (inPhase .done).phase = .done ∧ faulted.phase = .fault ∧
    (padding 3 0).cmdReady = false := by decide

/-- The first and the last index, the phases, and the first reserved index. -/
theorem witness_RdhexReturnsOneDigit :
    (0 : BitVec 6).toNat / 8 < 8 ∧ (63 : BitVec 6).toNat / 8 < 8 ∧ (inPhase .done).phase = .done ∧
    (absorbing 3).phase = .absorb ∧ faulted.phase = .fault ∧ (padding 3 0).cmdReady = false ∧
    (0x440 : CmdWord) &&& 0xF00 = 0x400 ∧ (0x440 : CmdWord) &&& 0x0C0 ≠ 0 := by decide

/-- Each clause: the fault entries, the length limit, the five "ok" entries and the ignored ones. -/
theorem witness_CommandLegalityTable :
    (absorbing (2 ^ 61 - 1)).len.toNat = 2 ^ 64 - 8 ∧
    ((absorbing 63).phase = .absorb ∧ (absorbing 63).len.toNat ≠ 2 ^ 64 - 8 ∧ (absorbing 63).fill.toNat < 64) ∧
    (faulted.phase = .fault ∧ encode .start = .cmd 0x100) := by decide

/-! ### Witnesses: faults -/

/-- One state for each clause: a reserved word, DATA and FINISH outside ABSORB, RDHEX outside DONE, one
byte too many. -/
theorem witness_FaultCauseByPriority :
    [(Phase.absorb, 0x4FF, Decoded.rejected .reservedCommand), (.done, 0x2FF, .instr (.data 0xFF)),
     (.idle, 0x300, .instr .finish), (.absorb, 0x400, .instr (.rdhex 0))].all (fun p =>
      let s := presenting p.1 p.2.1
      !s.pins.rst && s.pins.cmdValid && s.phase == p.1 && decodeCmd s.pins.cmd == p.2.2) = true ∧
    (let s := { absorbing (2 ^ 61 - 1) with host := [present 0x200] }
     s.pins.rst = false ∧ s.pins.cmdValid = true ∧ decodeCmd s.pins.cmd = .instr (.data 0) ∧
     s.phase = .absorb ∧ s.len.toNat = 2 ^ 64 - 8) := by decide

theorem witness_FaultEntryIsPrecise :
    (presenting .idle 0x300).phase ≠ .fault ∧
    nextIs (step (presenting .idle 0x300)) (fun s => s.phase == .fault) = true := by decide +kernel

/-- In FAULT with a command presented, and with reset asserted. -/
theorem witness_FaultIsLeftOnlyByReset :
    (presenting .fault 0x100).phase = .fault ∧ (presenting .fault 0x100).pins.rst = false ∧
    (presenting .fault 0x100).pins.cmdValid = true ∧ (resetting .fault).phase = .fault ∧
    (resetting .fault).pins.rst = true := by decide

/-! ### Witnesses: micro-operations -/

/-- The first pad byte, the last zero byte, the first and the last length byte of "abc" (PADK is 52). -/
theorem witness_PadbAppendsThePadByte :
    [0, 52, 53, 60].all (fun j =>
      let s := padding 3 j
      decide (s.fill.toNat < 64) && s.phase == .pad && s.t == 0 && decide (s.padi.toNat < padN s.len)) = true ∧
    (padding 3 0).padi = 0 ∧ (1 ≤ (padding 3 52).padi.toNat ∧ (padding 3 52).padi.toNat ≤ padK (padding 3 52).len) ∧
    padK (padding 3 53).len < (padding 3 53).padi.toNat := by decide

theorem witness_LdwLoadsTheBlock : (compressing .load 0).phase = .load ∧ (compressing .load 0).t = 0 := by decide

/-- The first and the last index. -/
theorem witness_XpdExpandsOneWord :
    [16, 63].all (fun t =>
      let s := compressing .expand t
      s.phase == .expand && s.t == t && decide (16 ≤ t.toNat)) = true := by decide

theorem witness_LdvCopiesTheHashState : (compressing .initv 0).phase = .initv ∧ (compressing .initv 0).t = 0 := by
  decide

/-- The first and the last round. -/
theorem witness_RndPerformsOneRound :
    [0, 63].all (fun t => (compressing .round t).phase == .round && (compressing .round t).t == t) = true := by decide

/-- The three ways out of FOLD. -/
theorem witness_FldFoldsAndChoosesThePhase :
    (compressing .fold 0).phase = .fold ∧ (compressing .fold 0).t = 0 ∧
    (compressing .fold 0).padi.toNat = padN (compressing .fold 0).len ∧
    ({ compressing .fold 0 with padi := 60 } : State).padi.toNat < padN 24 ∧
    ({ compressing .fold 0 with fin := false } : State).fin = false := by decide

/-- One state for each stop. -/
theorem witness_StopsOutsideThePreconditions :
    (encode .ldw = .useq 0x0C0 ∧ decode (.useq (inPhase .idle).useq) ≠ .instr .ldw) ∧
    (let s := { absorbing 0 with fill := 64 }
     s.phase = .absorb ∧ s.len.toNat ≠ 2 ^ 64 - 8 ∧ 64 ≤ s.fill.toNat) ∧
    (let s := padding 3 61
     s.phase = .pad ∧ s.t = 0 ∧ padN s.len ≤ s.padi.toNat) ∧
    (let s := { padding 3 0 with fill := 64 }
     s.phase = .pad ∧ s.t = 0 ∧ s.padi.toNat < padN s.len ∧ 64 ≤ s.fill.toNat) := by decide

/-! ### Witnesses: who writes what -/

theorem witness_InstructionsWriteOnlyTheirRegisters :
    (∃ t, exec .nop (absorbing 3) = .next t) ∧ (∃ t, exec (.xpd 63) (compressing .expand 63) = .next t) :=
  ⟨⟨_, rfl⟩, ⟨_, rfl⟩⟩

theorem witness_HashStateIsUpdatedOnlyByAddition : ∃ t, step (compressing .fold 0) = .next t := ⟨_, rfl⟩

theorem witness_BlockIsReadOnlyWhileCompressed :
    (compressing .fold 0).pins.rst = false ∧ (compressing .fold 0).phase = .fold ∧
    ∃ t, step (compressing .fold 0) = .next t := ⟨rfl, rfl, _, rfl⟩

theorem witness_FaultRegistersKeepTheFirstFault :
    nextIs (step (presenting .idle 0x300)) (fun s => s.cause != .noFault && s.fcmd != 0) = true := by decide +kernel

/-! ### Witnesses: reset, invariants, runs -/

/-- A width, and the last bit. -/
theorem witness_RotatesBitByBit : (64 = 16 ∨ 64 = 32 ∨ 64 = 64) ∧ 0 < 64 ∧ 63 < 64 := by decide

/-- A width, the first and the last byte. -/
theorem witness_SplitIsBigEndian : (64 = 16 ∨ 64 = 32 ∨ 64 = 64) ∧ 0 < 64 / 8 ∧ 7 < 64 / 8 := by decide

/-- The first and the last bit; and for the sigmas the last bit a shift fills from `x` and the next. -/
theorem witness_ChooseAndMajorityBitByBit_SigmaFunctionsBitByBit :
    0 < 32 ∧ 31 < 32 ∧ 28 < 29 ∧ ¬ 29 < 29 ∧ 21 < 22 ∧ ¬ 22 < 22 := by decide

/-- For `LEN = 24`: a zero byte, and the first and the last length byte; and a message. -/
theorem witness_PadBytesMakeThePadding :
    (1 ≤ 52 ∧ 52 ≤ padK 24) ∧ padK 24 + 1 ≤ 53 ∧ 60 ≤ padK 24 + 8 ∧
    8 * ([0x61, 0x62, 0x63] : List Byte).length < 2 ^ 64 := by decide

theorem inv_padding_abc : (padding 3 0).Inv :=
  ⟨⟨rfl, rfl⟩, by decide, rfl, by decide, rfl, by decide⟩

theorem witness_PadCountFollowsTheModularFormula :
    (padding 3 0).Inv ∧ (padding 3 0).fin = true ∧ (padding 3 0).pins.rst = false ∧
    nextAction (padding 3 0) ≠ .perform .start ∧ nextIs (step (padding 3 0)) (fun _ => true) = true :=
  ⟨inv_padding_abc, rfl, rfl, by decide, by decide +kernel⟩

/-- The empty message, and the residues on both sides of the rollover (R92). -/
theorem witness_PaddingFillsWholeBlocks :
    8 * ([] : List Byte).length < 2 ^ 64 ∧ 8 * (List.replicate 55 (0 : Byte)).length < 2 ^ 64 ∧
    8 * (List.replicate 56 (0 : Byte)).length < 2 ^ 64 ∧ (8 * 56 + 8 + 8 * 63 + 64) % 512 = 0 := by decide

/-- An index on each side of the first expanded word. -/
theorem witness_ExpandSatisfiesTheRecurrence :
    (15 : BitVec 6).toNat < 16 ∧ 16 ≤ (16 : BitVec 6).toNat ∧ 16 ≤ (63 : BitVec 6).toNat := by decide

theorem witness_ResetWinsInEveryState : (resetting .round).pins.rst = true := by decide

theorem witness_EveryStepKeepsTheInvariant : State.reset.Inv ∧ (padding 3 0).Inv ∧ (compressing .load 0).Inv :=
  ⟨⟨rfl, rfl⟩, inv_padding_abc, inv_compressing_load⟩

/-- Two states in ABSORB that differ in every register that is not live. -/
theorem witness_StepReadsOnlyLiveRegisters :
    AgreeOnLive (absorbing 0)
      { absorbing 0 with v := romIV, w := romK, buf := Vector.replicate 64 0xFF, resets := 3 } :=
  ⟨rfl, rfl, rfl, rfl, rfl, fun _ => ⟨rfl, rfl, rfl, rfl, rfl, rfl, fun _ j h => absurd h (Nat.not_lt_zero _),
    fun h => absurd h (by decide), fun h => absurd h (by decide), fun h => absurd h (by decide)⟩⟩

/-- Two states in IDLE that differ in the registers reset leaves unspecified. -/
theorem witness_UnspecifiedRegistersNeverMatter :
    let a := State.reset
    let b := { State.reset with h := romIV, len := 24, fill := 77, t := 5, padi := 99, fin := true }
    a.phase = .idle ∧ b.phase = .idle ∧ a.cause = b.cause ∧ a.fcmd = b.fcmd ∧ a.rsp = b.rsp ∧ a.host = b.host ∧
    a.len ≠ b.len := by decide

theorem witness_OneBlockTakes115StepsAndCompresses :
    (presenting .load 0x100).phase = .load ∧ (presenting .load 0x100).t = 0 ∧ (presenting .load 0x100).NoReset :=
  ⟨rfl, rfl, by unfold State.NoReset; decide⟩

/-- The message "a", and a NOP presented after it. -/
theorem witness_CoreComputesTheHashOfEveryMessage :
    let s := { State.reset with host := messageInputs [0x61] ++ [present 0x000] }
    s.phase = .idle ∧ 8 * ([0x61] : List Byte).length < 2 ^ 64 ∧
    s.host = messageInputs [0x61] ++ [present 0x000] ∧
    ∀ p ∈ [present 0x000], p.rst = false ∧ p.cmdValid = true := by decide

theorem witness_ReadingTheDigestReturnsItsCharacters :
    let s := { inPhase .done with host := readDigestInputs ++ [] }
    s.phase = .done ∧ s.host = readDigestInputs ++ [] ∧ 0 < 64 ∧ 63 < 64 := ⟨rfl, rfl, by decide, by decide⟩

theorem witness_HostReadsTheDigestOfItsMessage :
    let s := { State.reset with host := messageInputs [] ++ readDigestInputs ++ [] }
    s.phase = .idle ∧ 8 * ([] : List Byte).length < 2 ^ 64 ∧
    s.host = messageInputs [] ++ readDigestInputs ++ [] ∧ 63 < 64 := ⟨rfl, by decide, rfl, by decide⟩

theorem witness_EveryBusyRunEnds :
    (padding 3 0).Inv ∧ (padding 3 0).cmdReady = false ∧ (padding 3 0).NoReset := ⟨inv_padding_abc, rfl, by unfold State.NoReset; decide⟩

end Sys2Proof.Tests
end

section
/-!
PROOFS. Which action is enabled, and what the whole step then answers (spec/10_state.md R30,
spec/60_exceptions.md R132, spec/30_encoding.md R65).
-/

namespace Sys2Proof.Machine

/-- The command decoder rejects with one reason only (R64). -/
theorem decodeCmd_rejected {c : CmdWord} {r : Reject} (h : decodeCmd c = .rejected r) :
    r = .reservedCommand := by
  simp only [decodeCmd] at h
  repeat
    split at h
    · cases h
  cases h
  rfl

/-- A command word decodes to one of the five commands (R62). -/
theorem decodeCmd_instr {c : CmdWord} {i : Instr} (h : decodeCmd c = .instr i) :
    i = .nop ∨ i = .start ∨ (∃ b, i = .data b) ∨ i = .finish ∨ ∃ k, i = .rdhex k := by
  simp only [decodeCmd] at h
  repeat
    split at h
    · cases h; simp
  cases h

/-- A sequencer word decodes to one of the six micro-operations (R63). -/
theorem decodeUseq_instr {u : UseqWord} {i : Instr} (h : decodeUseq u = .instr i) :
    i = .padb ∨ i = .ldw ∨ (∃ t, i = .xpd t) ∨ i = .ldv ∨ (∃ t, i = .rnd t) ∨ i = .fld := by
  simp only [decodeUseq] at h
  split at h
  · cases h
  repeat
    split at h
    · cases h; simp
  cases h

/-! ### The meaning of each instruction as one of the two frames around its own rule -/

theorem exec_nop (s : State) :
    exec .nop s = commandStep .nop 0x000 (fun s => .next (s.respond 0x00)) s := rfl

theorem exec_start (s : State) :
    exec .start s = commandStep .start 0x100 (fun s => .next (s.startMessage.respond 0x00)) s := rfl

theorem exec_data (b : Byte) (s : State) :
    exec (.data b) s = commandStep (.data b) (0x200 + b.setWidth 12) (dataBody b) s := rfl

theorem exec_finish (s : State) :
    exec .finish s = commandStep .finish 0x300 (fun s => .next (s.endMessage.respond 0x00)) s := rfl

theorem exec_rdhex (k : BitVec 6) (s : State) :
    exec (.rdhex k) s =
      commandStep (.rdhex k) (0x400 + k.setWidth 12) (fun s => .next (s.respond (s.hex k))) s := rfl

theorem exec_padb (s : State) : exec .padb s = microStep .padb padbBody s := rfl

theorem exec_ldw (s : State) : exec .ldw s = microStep .ldw (fun s => .next s.loadWords) s := rfl

theorem exec_xpd (t : BitVec 6) (s : State) :
    exec (.xpd t) s = microStep (.xpd t) (fun s => .next (s.expandWord t)) s := rfl

theorem exec_ldv (s : State) : exec .ldv s = microStep .ldv (fun s => .next s.loadWorking) s := rfl

theorem exec_rnd (t : BitVec 6) (s : State) :
    exec (.rnd t) s = microStep (.rnd t) (fun s => .next (s.roundAt t)) s := rfl

theorem exec_fld (s : State) : exec .fld s = microStep .fld (fun s => .next s.foldBack) s := rfl

/-! ### Where a command is legal (R114) -/

theorem legalIn_data {b : Byte} {p : Phase} : legalIn (.data b) p = true ↔ p = .absorb := by
  simp [legalIn]

theorem legalIn_finish {p : Phase} : legalIn .finish p = true ↔ p = .absorb := by
  simp [legalIn]

theorem legalIn_rdhex {k : BitVec 6} {p : Phase} : legalIn (.rdhex k) p = true ↔ p = .done := by
  simp [legalIn]

/-- No instruction is legal as a command in FAULT or in a busy phase. -/
theorem phase_of_legalIn {i : Instr} {p : Phase} (h : legalIn i p = true) :
    p = .idle ∨ p = .absorb ∨ p = .done := by
  cases i <;> simp [legalIn, or_assoc] at h <;> simp [h]

theorem not_fault_of_legalIn {i : Instr} {p : Phase} (h : legalIn i p = true) : p ≠ .fault := by
  obtain rfl | rfl | rfl := phase_of_legalIn h <;> decide

theorem ready_of_legalIn {i : Instr} {p : Phase} (h : legalIn i p = true) : p.ready = true := by
  obtain rfl | rfl | rfl := phase_of_legalIn h <;> rfl

/-! ### The enabled step -/

/-- Every state is in one of six situations, and which one decides what the step is (R30, R132, R113). -/
theorem step_situations (s : State) :
    (s.pins.rst = true ∧ step s = .next (resetStep s.advance)) ∨
    (s.pins.rst = false ∧ s.cmdReady = true ∧ s.pins.cmdValid = false ∧ step s = .next s.advance) ∨
    (∃ i, s.pins.rst = false ∧ s.cmdReady = true ∧ s.pins.cmdValid = true ∧
      decodeCmd s.pins.cmd = .instr i ∧ step s = exec i s.advance) ∨
    (s.pins.rst = false ∧ s.cmdReady = true ∧ s.pins.cmdValid = true ∧
      decodeCmd s.pins.cmd = .rejected .reservedCommand ∧
      step s = .next (rejectCommand s.pins.cmd s.advance)) ∨
    (∃ i, s.pins.rst = false ∧ s.cmdReady = false ∧ decodeUseq s.useq = .instr i ∧
      step s = exec i s.advance) ∨
    (s.pins.rst = false ∧ s.cmdReady = false ∧ (∀ i, decodeUseq s.useq ≠ .instr i) ∧
      step s = .refused .unreachableUseq) := by
  unfold step nextAction
  cases s.pins.rst
  case true => simp
  cases s.cmdReady
  case false => cases decodeUseq s.useq <;> simp
  cases s.pins.cmdValid
  case false => simp
  cases hc : decodeCmd s.pins.cmd with
  | instr i => simp
  | rejected r => simp [decodeCmd_rejected hc]

@[simp] theorem State.advance_useq (s : State) : s.advance.useq = s.useq := rfl
@[simp] theorem State.advance_cmdReady (s : State) : s.advance.cmdReady = s.cmdReady := rfl

/-- The ready phases (R30). -/
theorem cmdReady_iff (s : State) :
    s.cmdReady = true ↔ s.phase = .idle ∨ s.phase = .absorb ∨ s.phase = .done ∨ s.phase = .fault := by
  unfold State.cmdReady
  cases s.phase <;> simp [Phase.ready]

/-- Append writes `BUF`, `FILL` and PHASE only. -/
theorem append_frame {s s' : State} {b : Byte} (h : s.append b = some s') :
    s'.h = s.h ∧ s'.v = s.v ∧ s'.w = s.w ∧ s'.len = s.len ∧ s'.t = s.t ∧ s'.padi = s.padi ∧ s'.fin = s.fin ∧
    s'.cause = s.cause ∧ s'.fcmd = s.fcmd ∧ s'.rsp = s.rsp ∧ s'.host = s.host ∧ s'.resets = s.resets := by
  obtain ⟨ok, rfl⟩ := append_eq_some.mp h
  simp

/-- Append goes to LOAD exactly when it writes the last position (R86). -/
theorem phaseAfterAppend_cases (fill : BitVec 7) (p : Phase) :
    (fill.toNat = 63 ∧ phaseAfterAppend fill p = .load) ∨
    (fill.toNat ≠ 63 ∧ phaseAfterAppend fill p = p) := by
  have full : fill + 1 = 64 ↔ fill.toNat = 63 := by
    constructor <;> intro h <;> bv_omega
  by_cases last : fill.toNat = 63
  · exact .inl ⟨last, if_pos (full.mpr last)⟩
  · exact .inr ⟨last, if_neg (mt full.mp last)⟩

end Sys2Proof.Machine
end

section
/-!
PROOFS. Every step from a state of the invariant answers, and answers a state of the invariant
(spec/10_state.md R29, R41).
-/

namespace Sys2Proof.Machine

/-- The invariant reads neither the response nor the host's list. -/
@[simp] theorem respond_inv (s : State) (r : Byte) : (s.respond r).Inv ↔ s.Inv := Iff.rfl

@[simp] theorem advance_inv (s : State) : s.advance.Inv ↔ s.Inv := Iff.rfl

theorem resetStep_inv (s : State) : (resetStep s).Inv := ⟨rfl, rfl⟩

theorem raiseFault_inv {c : Cause} (hc : c ≠ .noFault) (x : CmdWord) (s : State) :
    (raiseFault c x s).Inv := hc

theorem rejectCommand_inv {s : State} (inv : s.Inv) (x : CmdWord) : (rejectCommand x s).Inv := by
  obtain ⟨-, h⟩ | ⟨-, h⟩ | ⟨-, -, h⟩ := rejectCommand_cases x s <;> rw [h]
  · exact inv
  · exact inv
  · exact raiseFault_inv (by decide) x s

/-- The outcome is a next state, and one of the invariant. -/
def AnswersInv (r : Result) : Prop := ∃ t, r = .next t ∧ t.Inv

/-- Only the command's own rule is left to check: being held, being ignored in FAULT and WrongPhase keep
the invariant for every command (R113). -/
theorem commandStep_answersInv {i : Instr} {body : State → Result} {s : State} (x : CmdWord) (inv : s.Inv)
    (own : legalIn i s.phase = true → AnswersInv (body s)) : AnswersInv (commandStep i x body s) := by
  obtain ⟨-, h⟩ | ⟨-, h⟩ | ⟨-, -, legal, h⟩ | ⟨-, -, -, h⟩ := commandStep_cases i x body s <;> rw [h]
  · exact ⟨_, rfl, inv⟩
  · exact ⟨_, rfl, inv⟩
  · exact own legal
  · exact ⟨_, rfl, raiseFault_inv (by decide) x s⟩

/-- Outside FAULT a state of the invariant has no fault on record (R29). -/
theorem State.Inv.clean {s : State} (inv : s.Inv) (noFault : s.phase ≠ .fault) : s.Clean := by
  unfold State.Inv at inv
  split at inv
  case h_1 => exact inv
  case h_10 h => exact absurd h noFault
  all_goals exact inv.1

theorem startMessage_inv {s : State} (clean : s.Clean) : s.startMessage.Inv := by
  simpa [State.Inv, State.Clean] using clean

theorem endMessage_inv {s : State} (absorb : s.phase = .absorb) (inv : s.Inv) : s.endMessage.Inv := by
  simp only [State.Inv, absorb] at inv
  obtain ⟨clean, len8, -, -, t0, fillEq⟩ := inv
  simp only [State.Inv, State.endMessage_phase]
  exact ⟨clean, len8, rfl, by simp [padN], t0, by simpa using fillEq⟩

theorem dataBody_answersInv (b : Byte) {s : State} (absorb : s.phase = .absorb) (inv : s.Inv) :
    AnswersInv (dataBody b s) := by
  simp only [State.Inv, absorb] at inv
  obtain ⟨clean, len8, notFin, padi0, t0, fillEq⟩ := inv
  unfold dataBody
  split
  · exact ⟨_, rfl, raiseFault_inv (by decide) _ s⟩
  · next notMax =>
    have ok : s.fill.toNat < 64 := by omega
    have len' : (s.len + 8).toNat = s.len.toNat + 8 := by
      have : s.len.toNat ≠ 2 ^ 64 - 8 := fun h => notMax (BitVec.eq_of_toNat_eq h)
      bv_omega
    have fill' : (s.fill + 1).toNat = s.fill.toNat + 1 := by bv_omega
    rw [append_of_lt ok]
    refine ⟨_, rfl, (respond_inv _ _).mpr ?_⟩
    obtain ⟨last, next⟩ | ⟨notLast, next⟩ := phaseAfterAppend_cases s.fill .absorb
    · simp only [State.Inv, absorb, next]
      refine ⟨clean, ⟨?_, ?_, ?_, ?_⟩, t0⟩
      · simp only [len']; omega
      · bv_omega
      · simp only [len']; exact fun _ => ⟨padi0, by omega⟩
      · simp [notFin]
    · simp only [State.Inv, absorb, next]
      simp only [len', fill']
      exact ⟨clean, by omega, notFin, padi0, t0, by omega⟩

/-- `PADN` pad bytes fill the last block (R93). -/
theorem padN_fills {len : BitVec 64} (len8 : len.toNat % 8 = 0) : (len.toNat / 8 + padN len) % 64 = 0 := by
  unfold padN padK
  omega

theorem padN_le (len : BitVec 64) : padN len ≤ 72 := by
  have := padK_le len
  unfold padN
  omega

theorem padbBody_answersInv {s : State} (pad : s.phase = .pad) (inv : s.Inv) : AnswersInv (padbBody s) := by
  simp only [State.Inv, pad] at inv
  obtain ⟨clean, len8, fin, padiLt, t0, fillEq⟩ := inv
  obtain ⟨b, hb⟩ := Option.isSome_iff_exists.mp ((padByte_isSome _ _).mpr padiLt)
  have ok : s.fill.toNat < 64 := by omega
  have bound := padN_le s.len
  have whole := padN_fills len8
  have fill' : (s.fill + 1).toNat = s.fill.toNat + 1 := by bv_omega
  have padi' : (s.padi + 1).toNat = s.padi.toNat + 1 := by
    rw [BitVec.toNat_add]; exact Nat.mod_eq_of_lt (by simp; omega)
  unfold padbBody
  simp only [hb, append_of_lt ok]
  refine ⟨_, rfl, ?_⟩
  obtain ⟨last, next⟩ | ⟨notLast, next⟩ := phaseAfterAppend_cases s.fill .pad
  · simp only [State.Inv, pad, next]
    refine ⟨clean, ⟨len8, ?_, ?_, ?_⟩, t0⟩
    · bv_omega
    · simp [fin]
    · simp only [padi']; exact fun _ => ⟨padiLt, by omega⟩
  · simp only [State.Inv, pad, next]
    simp only [padi', fill']
    exact ⟨clean, len8, fin, by omega, t0, by omega⟩

theorem loadWords_inv {s : State} (load : s.phase = .load) (inv : s.Inv) : s.loadWords.Inv := by
  simp only [State.Inv, load] at inv
  obtain ⟨clean, full, -⟩ := inv
  exact ⟨clean, full, by simp⟩

theorem expandWord_inv {s : State} (expand : s.phase = .expand) (inv : s.Inv) : (s.expandWord s.t).Inv := by
  simp only [State.Inv, expand] at inv
  obtain ⟨clean, full, t16⟩ := inv
  by_cases last : s.t = 63
  · simp only [State.Inv, State.expandWord_phase, last, if_true]
    exact ⟨clean, full, rfl⟩
  · simp only [State.Inv, State.expandWord_phase, last, if_false, expand]
    refine ⟨clean, full, ?_⟩
    simp only [State.expandWord_t, last, if_false]
    bv_omega

theorem loadWorking_inv {s : State} (initv : s.phase = .initv) (inv : s.Inv) : s.loadWorking.Inv := by
  simp only [State.Inv, initv] at inv
  obtain ⟨clean, full, -⟩ := inv
  exact ⟨clean, full⟩

theorem roundAt_inv {s : State} (round : s.phase = .round) (inv : s.Inv) : (s.roundAt s.t).Inv := by
  simp only [State.Inv, round] at inv
  obtain ⟨clean, full⟩ := inv
  by_cases last : s.t = 63
  · simp only [State.Inv, State.roundAt_phase, last, if_true]
    exact ⟨clean, full, rfl⟩
  · simp only [State.Inv, State.roundAt_phase, last, if_false, round]
    exact ⟨clean, full⟩

theorem foldBack_inv {s : State} (fold : s.phase = .fold) (inv : s.Inv) : s.foldBack.Inv := by
  simp only [State.Inv, fold] at inv
  obtain ⟨clean, ⟨len8, -, more, last⟩, t0⟩ := inv
  simp only [State.Inv, State.foldBack_phase, phaseAfterFold]
  cases fin : s.fin
  case false =>
    obtain ⟨padi0, whole⟩ := more fin
    exact ⟨clean, len8, fin, padi0, t0, whole.symm⟩
  case true =>
    obtain ⟨padiLe, whole⟩ := last fin
    obtain notAll | all : s.padi.toNat < padN s.len ∨ s.padi.toNat = padN s.len := by omega
    · simp only [notAll, if_true, Bool.true_eq_false, if_false]
      exact ⟨clean, len8, fin, notAll, t0, whole.symm⟩
    · simp only [all, Nat.lt_irrefl, Bool.true_eq_false, if_false]
      exact ⟨clean, len8, fin, all, t0, rfl⟩

/-- A busy state of the invariant selects the micro-operation of its phase (R63, R41). -/
theorem inv_selects {s : State} (inv : s.Inv) (busy : s.cmdReady = false) :
    ∃ i, decodeUseq s.useq = .instr i := by
  rw [decodeUseq_useq]
  unfold State.cmdReady at busy
  unfold State.Inv at inv
  cases hp : s.phase <;> simp_all [Phase.ready]

/-- A command answers in every state of the invariant. -/
theorem exec_command_answersInv {c : CmdWord} {i : Instr} {s : State} (command : decodeCmd c = .instr i)
    (inv : s.Inv) : AnswersInv (exec i s) := by
  obtain rfl | rfl | ⟨b, rfl⟩ | rfl | ⟨k, rfl⟩ := decodeCmd_instr command
  · rw [exec_nop]
    exact commandStep_answersInv _ inv fun _ => ⟨_, rfl, inv⟩
  · rw [exec_start]
    exact commandStep_answersInv _ inv fun legal =>
      ⟨_, rfl, startMessage_inv (inv.clean (not_fault_of_legalIn legal))⟩
  · rw [exec_data]
    exact commandStep_answersInv _ inv fun legal => dataBody_answersInv b (legalIn_data.mp legal) inv
  · rw [exec_finish]
    exact commandStep_answersInv _ inv fun legal =>
      ⟨_, rfl, (respond_inv _ _).mpr (endMessage_inv (legalIn_finish.mp legal) inv)⟩
  · rw [exec_rdhex]
    exact commandStep_answersInv _ inv fun _ => ⟨_, rfl, inv⟩

/-- The selected micro-operation answers in every state of the invariant. -/
theorem exec_selected_answersInv {i : Instr} {s : State}
    (selected : decodeUseq s.useq = .instr i) (inv : s.Inv) : AnswersInv (exec i s) := by
  have own := fun body => microStep_of_selected (body := body) selected
  obtain rfl | rfl | ⟨t, rfl⟩ | rfl | ⟨t, rfl⟩ | rfl := decodeUseq_instr selected
  · rw [exec_padb, own]
    exact padbBody_answersInv ((selects_padb s).mp selected).1 inv
  · rw [exec_ldw, own]
    exact ⟨_, rfl, loadWords_inv ((selects_ldw s).mp selected).1 inv⟩
  · obtain ⟨expand, rfl, -⟩ := (selects_xpd s t).mp selected
    rw [exec_xpd, own]
    exact ⟨_, rfl, expandWord_inv expand inv⟩
  · rw [exec_ldv, own]
    exact ⟨_, rfl, loadWorking_inv ((selects_ldv s).mp selected).1 inv⟩
  · obtain ⟨round, rfl⟩ := (selects_rnd s t).mp selected
    rw [exec_rnd, own]
    exact ⟨_, rfl, roundAt_inv round inv⟩
  · rw [exec_fld, own]
    exact ⟨_, rfl, foldBack_inv ((selects_fld s).mp selected).1 inv⟩

theorem step_answersInv {s : State} (inv : s.Inv) : AnswersInv (step s) := by
  obtain ⟨-, h⟩ | ⟨-, -, -, h⟩ | ⟨i, -, -, -, command, h⟩ | ⟨-, -, -, -, h⟩ | ⟨i, -, -, selected, h⟩ |
    ⟨-, busy, unselected, -⟩ := step_situations s
  · exact ⟨_, h, resetStep_inv _⟩
  · exact ⟨_, h, inv⟩
  · rw [h]; exact exec_command_answersInv command inv
  · exact ⟨_, h, rejectCommand_inv ((advance_inv s).mpr inv) _⟩
  · rw [h]; exact exec_selected_answersInv selected inv
  · obtain ⟨i, selected⟩ := inv_selects inv busy
    exact absurd selected (unselected i)

/-- Settles O50: the clauses of the invariant are kept by each instruction's own rule, and the frames around
the rules add only fault entry, which R29 asks for, and steps that change no register. -/
theorem everyStepKeepsTheInvariant : Obligations.EveryStepKeepsTheInvariant :=
  fun _ inv => step_answersInv inv

end Sys2Proof.Machine
end

section
/-!
PROOFS. A step reads only the registers that are live in its phase (spec/10_state.md R39, R42, R43).
-/

namespace Sys2Proof.Machine

theorem AgreeOnLive.phase_eq {a b : State} (h : AgreeOnLive a b) : a.phase = b.phase := by
  obtain ⟨phase, -⟩ := h
  exact phase

theorem AgreeOnLive.pins_eq {a b : State} (h : AgreeOnLive a b) : a.pins = b.pins := by
  obtain ⟨-, -, -, -, host, -⟩ := h
  simp only [State.pins, host]

/-- Outside IDLE and FAULT `H` and the control registers agree. -/
theorem AgreeOnLive.control_eq {a b : State} (h : AgreeOnLive a b) (notInert : a.phase.inert = false) :
    a.h = b.h ∧ a.len = b.len ∧ a.fill = b.fill ∧ a.t = b.t ∧ a.padi = b.padi ∧ a.fin = b.fin := by
  obtain ⟨-, -, -, -, -, live⟩ := h
  obtain ⟨hh, len, fill, t, padi, fin, -⟩ := live notInert
  exact ⟨hh, len, fill, t, padi, fin⟩

theorem AgreeOnLive.cmdReady_eq {a b : State} (h : AgreeOnLive a b) : a.cmdReady = b.cmdReady :=
  congrArg Phase.ready h.phase_eq

theorem AgreeOnLive.advance {a b : State} (h : AgreeOnLive a b) : AgreeOnLive a.advance b.advance := by
  have holds : a.holds = b.holds := by simp [State.holds, h.pins_eq, h.cmdReady_eq]
  obtain ⟨phase, cause, fcmd, -, host, live⟩ := h
  exact ⟨phase, cause, fcmd, rfl, by simp [holds, host], live⟩

theorem AgreeOnLive.respond {a b : State} (h : AgreeOnLive a b) (r : Byte) :
    AgreeOnLive (a.respond r) (b.respond r) := by
  obtain ⟨phase, cause, fcmd, -, host, live⟩ := h
  exact ⟨phase, cause, fcmd, rfl, host, live⟩

/-- Nothing but the ports is live in FAULT. -/
theorem AgreeOnLive.raiseFault {a b : State} (h : AgreeOnLive a b) (c : Cause) (x : CmdWord) :
    AgreeOnLive (raiseFault c x a) (raiseFault c x b) := by
  obtain ⟨-, -, -, -, host, -⟩ := h
  exact ⟨rfl, rfl, rfl, rfl, host, by simp [Phase.inert]⟩

/-- Nothing but the ports is live in IDLE. -/
theorem AgreeOnLive.resetStep {a b : State} (h : AgreeOnLive a b) :
    AgreeOnLive (resetStep a) (resetStep b) := by
  obtain ⟨-, -, -, -, host, -⟩ := h
  exact ⟨rfl, rfl, rfl, rfl, host, by simp [Phase.inert]⟩

theorem AgreeOnLive.rejectCommand {a b : State} (h : AgreeOnLive a b) (x : CmdWord) :
    AgreeOnLive (rejectCommand x a) (rejectCommand x b) := by
  unfold Machine.rejectCommand
  rw [← h.cmdReady_eq, ← h.phase_eq]
  split
  · exact h
  · split
    · exact h.respond _
    · exact h.raiseFault _ _

/-- START gives every live register of ABSORB a value of its own, and no byte of `BUF` is below `FILL`. -/
theorem AgreeOnLive.startMessage {a b : State} (h : AgreeOnLive a b) :
    AgreeOnLive a.startMessage b.startMessage := by
  obtain ⟨-, cause, fcmd, rsp, host, -⟩ := h
  exact ⟨rfl, cause, fcmd, rsp, host, by simp⟩

theorem AgreeOnLive.endMessage {a b : State} (h : AgreeOnLive a b) (absorb : a.phase = .absorb) :
    AgreeOnLive a.endMessage b.endMessage := by
  obtain ⟨-, cause, fcmd, rsp, host, live⟩ := h
  obtain ⟨hh, len, fill, t, padi, fin, buf, -⟩ := live (by rw [absorb]; rfl)
  exact ⟨rfl, cause, fcmd, rsp, host, fun _ => ⟨hh, len, fill, t, rfl, rfl, fun _ => buf (.inl absorb),
    by simp, by simp, by simp⟩⟩

theorem AgreeOnLive.loadWords {a b : State} (h : AgreeOnLive a b) (load : a.phase = .load) :
    AgreeOnLive a.loadWords b.loadWords := by
  obtain ⟨-, cause, fcmd, rsp, host, live⟩ := h
  obtain ⟨hh, len, fill, -, padi, fin, -, buf, -⟩ := live (by rw [load]; rfl)
  exact ⟨rfl, cause, fcmd, rsp, host, fun _ => ⟨hh, len, fill, rfl, padi, fin, by simp, by simp,
    by simp [buf load], by simp⟩⟩

theorem AgreeOnLive.expandWord {a b : State} (h : AgreeOnLive a b) (expand : a.phase = .expand)
    (t : BitVec 6) : AgreeOnLive (a.expandWord t) (b.expandWord t) := by
  obtain ⟨phase, cause, fcmd, rsp, host, live⟩ := h
  obtain ⟨hh, len, fill, -, padi, fin, -, -, w, -⟩ := live (by rw [expand]; rfl)
  have w' : a.w = b.w := w (.inl expand)
  refine ⟨by simp [phase], cause, fcmd, rsp, host, fun _ => ⟨hh, len, fill, rfl, padi, fin, ?_⟩⟩
  simp only [State.expandWord_phase, expand]
  split <;> simp [w']

theorem AgreeOnLive.loadWorking {a b : State} (h : AgreeOnLive a b) (initv : a.phase = .initv) :
    AgreeOnLive a.loadWorking b.loadWorking := by
  obtain ⟨-, cause, fcmd, rsp, host, live⟩ := h
  obtain ⟨hh, len, fill, t, padi, fin, -, -, w, -⟩ := live (by rw [initv]; rfl)
  exact ⟨rfl, cause, fcmd, rsp, host, fun _ => ⟨hh, len, fill, t, padi, fin, by simp, by simp,
    fun _ => w (.inr (.inl initv)), fun _ => hh⟩⟩

theorem AgreeOnLive.roundAt {a b : State} (h : AgreeOnLive a b) (round : a.phase = .round)
    (t : BitVec 6) : AgreeOnLive (a.roundAt t) (b.roundAt t) := by
  obtain ⟨phase, cause, fcmd, rsp, host, live⟩ := h
  obtain ⟨hh, len, fill, -, padi, fin, -, -, w, v⟩ := live (by rw [round]; rfl)
  have w' : a.w = b.w := w (.inr (.inr round))
  have v' : a.v = b.v := v (.inl round)
  refine ⟨by simp [phase], cause, fcmd, rsp, host, fun _ => ⟨hh, len, fill, rfl, padi, fin, ?_⟩⟩
  simp only [State.roundAt_phase, round]
  split <;> simp [w', v']

/-- FLD empties the block buffer, and `W` and `V` are dead after it. -/
theorem AgreeOnLive.foldBack {a b : State} (h : AgreeOnLive a b) (fold : a.phase = .fold) :
    AgreeOnLive a.foldBack b.foldBack := by
  obtain ⟨-, cause, fcmd, rsp, host, live⟩ := h
  obtain ⟨hh, len, fill, t, padi, fin, -, -, -, v⟩ := live (by rw [fold]; rfl)
  have v' : a.v = b.v := v (.inr fold)
  refine ⟨by simp [len, padi, fin], cause, fcmd, rsp, host, fun _ => ⟨by simp [hh, v'], len, rfl, t, padi, fin, ?_⟩⟩
  simp only [State.foldBack_phase, phaseAfterFold]
  split
  · simp
  · split <;> simp

theorem set_agree {u v : Vector Byte 64} {n : Nat} (x : Byte) (ok : n < 64)
    (below : ∀ j : Fin 64, j.val < n → u[j] = v[j]) :
    ∀ j : Fin 64, j.val < n + 1 → (u.set n x ok)[j] = (v.set n x ok)[j] := by
  intro j hj
  obtain rfl | lt : j.val = n ∨ j.val < n := by omega
  · simp
  · simpa [Vector.getElem_set, Nat.ne_of_gt lt] using below j lt

/-- Filling position 63 makes the whole of `BUF` agree. -/
theorem set_last_agree {u v : Vector Byte 64} {n : Nat} (x : Byte) (ok : n < 64) (last : n = 63)
    (below : ∀ j : Fin 64, j.val < n → u[j] = v[j]) : u.set n x ok = v.set n x ok :=
  Vector.ext fun j hj => set_agree x ok below ⟨j, hj⟩ (by simp; omega)

/-- The outcomes of Append agree: both fail, or both answer and agree. -/
theorem AgreeOnLive.append {a b : State} (h : AgreeOnLive a b) (x : Byte)
    (filling : a.phase = .absorb ∨ a.phase = .pad) :
    (a.append x = none ∧ b.append x = none) ∨
    ∃ a' b', a.append x = some a' ∧ b.append x = some b' ∧ AgreeOnLive a' b' := by
  obtain ⟨phase, cause, fcmd, rsp, host, live⟩ := h
  obtain ⟨hh, len, fill, t, padi, fin, buf, -⟩ := live (by obtain p | p := filling <;> rw [p] <;> rfl)
  obtain bad | ok := Nat.lt_or_ge 63 a.fill.toNat
  · exact .inl ⟨append_of_ge bad, append_of_ge (fill ▸ bad)⟩
  have ok : a.fill.toNat < 64 := by omega
  have fill' : (a.fill + 1).toNat = a.fill.toNat + 1 := by bv_omega
  refine .inr ⟨_, _, append_of_lt ok, append_of_lt (fill ▸ ok),
    by simp only [phase, fill], cause, fcmd, rsp, host, fun _ =>
    ⟨hh, len, by simp only [fill], t, padi, fin, ?_⟩⟩
  simp only [fill', ← fill]
  obtain ⟨last, next⟩ | ⟨-, next⟩ := phaseAfterAppend_cases a.fill a.phase
  · simp [next, set_last_agree x ok last (buf filling)]
  · rw [next]
    refine ⟨fun _ => set_agree x ok (buf filling), ?_⟩
    obtain p | p := filling <;> simp [p]

theorem AgreeOnLive.setLen {a b : State} (h : AgreeOnLive a b) (len : BitVec 64) :
    AgreeOnLive { a with len := len } { b with len := len } := by
  obtain ⟨phase, cause, fcmd, rsp, host, live⟩ := h
  refine ⟨phase, cause, fcmd, rsp, host, fun notInert => ?_⟩
  obtain ⟨hh, -, rest⟩ := live notInert
  exact ⟨hh, rfl, rest⟩

theorem AgreeOnLive.setPadi {a b : State} (h : AgreeOnLive a b) (padi : BitVec 7) :
    AgreeOnLive { a with padi := padi } { b with padi := padi } := by
  obtain ⟨phase, cause, fcmd, rsp, host, live⟩ := h
  refine ⟨phase, cause, fcmd, rsp, host, fun notInert => ?_⟩
  obtain ⟨hh, len, fill, t, -, rest⟩ := live notInert
  exact ⟨hh, len, fill, t, rfl, rest⟩

theorem AgreeOnLive.dataBody {a b : State} (h : AgreeOnLive a b) (absorb : a.phase = .absorb) (x : Byte) :
    AgreeOutcome (dataBody x a) (dataBody x b) := by
  obtain ⟨-, len, -⟩ := h.control_eq (by rw [absorb]; rfl)
  unfold Machine.dataBody
  rw [← len]
  split
  · exact h.raiseFault _ _
  · obtain ⟨ha, hb⟩ | ⟨a', b', ha, hb, agree⟩ := h.append x (.inl absorb)
    · simp only [ha, hb]
      rfl
    · obtain ⟨-, -, -, lenA, -⟩ := append_frame ha
      obtain ⟨-, -, -, lenB, -⟩ := append_frame hb
      simp only [ha, hb, lenA, lenB, len]
      exact (agree.setLen _).respond _

theorem AgreeOnLive.padbBody {a b : State} (h : AgreeOnLive a b) (pad : a.phase = .pad) :
    AgreeOutcome (padbBody a) (padbBody b) := by
  obtain ⟨-, len, -, -, padi, -⟩ := h.control_eq (by rw [pad]; rfl)
  unfold Machine.padbBody
  rw [← len, ← padi]
  cases padByte a.len a.padi.toNat with
  | none => rfl
  | some x =>
    obtain ⟨ha, hb⟩ | ⟨a', b', ha, hb, agree⟩ := h.append x (.inr pad)
    · simp only [ha, hb]
      rfl
    · obtain ⟨-, -, -, -, -, padiA, -⟩ := append_frame ha
      obtain ⟨-, -, -, -, -, padiB, -⟩ := append_frame hb
      simp only [ha, hb, padiA, padiB, padi]
      exact agree.setPadi _

/-- Whether a command is held, ignored, legal or a fault depends on PHASE alone. -/
theorem AgreeOnLive.commandStep {i : Instr} {body : State → Result} {a b : State} (h : AgreeOnLive a b)
    (x : CmdWord) (own : legalIn i a.phase = true → AgreeOutcome (body a) (body b)) :
    AgreeOutcome (commandStep i x body a) (commandStep i x body b) := by
  unfold Machine.commandStep
  rw [← h.cmdReady_eq, ← h.phase_eq]
  split
  · exact h
  · split
    · exact h.respond _
    · split
      · next legal => exact own legal
      · exact h.raiseFault _ _

/-- What the sequencer word selects depends on live registers only: `T` is live wherever it is read. -/
theorem AgreeOnLive.decodeUseq_eq {a b : State} (h : AgreeOnLive a b) :
    decodeUseq a.useq = decodeUseq b.useq := by
  rw [decodeUseq_useq, decodeUseq_useq, ← h.phase_eq]
  cases inert : a.phase.inert
  case false =>
    obtain ⟨-, -, -, t, -⟩ := h.control_eq inert
    rw [t]
  case true => cases p : a.phase <;> simp [p, Phase.inert] at inert ⊢

theorem AgreeOnLive.microStep {i : Instr} {body : State → Result} {a b : State} (h : AgreeOnLive a b)
    (own : decodeUseq a.useq = .instr i → AgreeOutcome (body a) (body b)) :
    AgreeOutcome (microStep i body a) (microStep i body b) := by
  unfold Machine.microStep
  rw [← h.decodeUseq_eq]
  split
  · next selected => exact own selected
  · rfl

theorem AgreeOnLive.hex_eq {a b : State} (h : AgreeOnLive a b) (done : a.phase = .done) (k : BitVec 6) :
    a.hex k = b.hex k := by
  obtain ⟨hh, -⟩ := h.control_eq (by rw [done]; rfl)
  simp only [State.hex, hh]

theorem AgreeOnLive.exec {a b : State} (h : AgreeOnLive a b) (i : Instr) :
    AgreeOutcome (exec i a) (exec i b) := by
  cases i with
  | nop =>
    simp only [exec_nop]
    exact h.commandStep _ fun _ => h.respond _
  | start =>
    simp only [exec_start]
    exact h.commandStep _ fun _ => h.startMessage.respond _
  | data x =>
    simp only [exec_data]
    exact h.commandStep _ fun legal => h.dataBody (legalIn_data.mp legal) x
  | finish =>
    simp only [exec_finish]
    exact h.commandStep _ fun legal => (h.endMessage (legalIn_finish.mp legal)).respond _
  | rdhex k =>
    simp only [exec_rdhex]
    refine h.commandStep _ fun legal => ?_
    simp only [h.hex_eq (legalIn_rdhex.mp legal)]
    exact h.respond _
  | padb =>
    simp only [exec_padb]
    exact h.microStep fun selected => h.padbBody ((selects_padb a).mp selected).1
  | ldw =>
    simp only [exec_ldw]
    exact h.microStep fun selected => h.loadWords ((selects_ldw a).mp selected).1
  | xpd t =>
    simp only [exec_xpd]
    exact h.microStep fun selected => h.expandWord ((selects_xpd a t).mp selected).1 t
  | ldv =>
    simp only [exec_ldv]
    exact h.microStep fun selected => h.loadWorking ((selects_ldv a).mp selected).1
  | rnd t =>
    simp only [exec_rnd]
    exact h.microStep fun selected => h.roundAt ((selects_rnd a t).mp selected).1 t
  | fld =>
    simp only [exec_fld]
    exact h.microStep fun selected => h.foldBack ((selects_fld a).mp selected).1

theorem AgreeOnLive.nextAction_eq {a b : State} (h : AgreeOnLive a b) : nextAction a = nextAction b := by
  unfold nextAction
  rw [h.pins_eq, h.cmdReady_eq, h.decodeUseq_eq]

/-- Settles O51: agreeing states enable the same action, and each action reads live registers only. -/
theorem stepReadsOnlyLiveRegisters : Obligations.StepReadsOnlyLiveRegisters := by
  intro a b h
  unfold step
  rw [h.nextAction_eq]
  cases nextAction b with
  | reset => exact h.advance.resetStep
  | quiescent => exact h.advance
  | perform i => exact h.advance.exec i
  | reject x => exact h.advance.rejectCommand x
  | unreachable => rfl

/-- In IDLE nothing but the ports and the fault registers is live. -/
theorem agreeOnLive_of_idle {a b : State} (ha : a.phase = .idle) (hb : b.phase = .idle)
    (cause : a.cause = b.cause) (fcmd : a.fcmd = b.fcmd) (rsp : a.rsp = b.rsp) (host : a.host = b.host) :
    AgreeOnLive a b :=
  ⟨ha.trans hb.symm, cause, fcmd, rsp, host, by simp [ha, Phase.inert]⟩

/-- Agreement is kept along runs of any length: both runs stop alike, or both go on and agree. -/
theorem AgreeOnLive.run (n : Nat) {a b : core.State} (h : AgreeOnLive a b) :
    AgreeOutcome (core.run n a) (core.run n b) := by
  induction n generalizing a b with
  | zero => exact h
  | succ n ih =>
    have agree : AgreeOutcome (core.step a) (core.step b) := stepReadsOnlyLiveRegisters a b h
    rw [Host.Core.run, Host.Core.run]
    cases ha : core.step a <;> cases hb : core.step b <;> rw [ha, hb] at agree
    case next.next => exact ih agree
    case fault.fault => exact agree
    case refused.refused => exact agree
    all_goals exact agree.elim

/-- Settles O52, by induction on the length of the runs: in IDLE the unspecified registers are not live. -/
theorem unspecifiedRegistersNeverMatter : Obligations.UnspecifiedRegistersNeverMatter :=
  fun n _ _ ha hb cause fcmd rsp host => (agreeOnLive_of_idle ha hb cause fcmd rsp host).run n

end Sys2Proof.Machine
end

section
/-!
PROOFS. What an answered instruction can have done, and from it the frames of the registers
(spec/10_state.md R18, R21, R29, R32, R39, R40).
-/

namespace Sys2Proof.Machine

/-- `Effect i s t`: everything that instruction `i`, if it answers from `s`, can have done to reach `t`. The
first three are the frame of a command step (R113), the rest the instructions' own rules. -/
inductive Effect : Instr → State → State → Prop where
  | held {i s} (busy : s.cmdReady = false) : Effect i s s
  | ignored {i s} (fault : s.phase = .fault) : Effect i s (s.respond 0x00)
  | wrongPhase {i s} (x : CmdWord) (ready : s.cmdReady = true) (noFault : s.phase ≠ .fault)
      (illegal : legalIn i s.phase = false) : Effect i s (raiseFault .wrongPhase x s)
  | nop {s} (legal : legalIn .nop s.phase = true) : Effect .nop s (s.respond 0x00)
  | start {s} (legal : legalIn .start s.phase = true) : Effect .start s (s.startMessage.respond 0x00)
  | overflow {s} (b : Byte) (x : CmdWord) (absorb : s.phase = .absorb) :
      Effect (.data b) s (raiseFault .lengthOverflow x s)
  | data {s s'} (b : Byte) (absorb : s.phase = .absorb) (appended : s.append b = some s') :
      Effect (.data b) s ({ s' with len := s'.len + 8 }.respond 0x00)
  | finish {s} (absorb : s.phase = .absorb) : Effect .finish s (s.endMessage.respond 0x00)
  | rdhex {s} (k : BitVec 6) (done : s.phase = .done) : Effect (.rdhex k) s (s.respond (s.hex k))
  | padb {s s'} (b : Byte) (pad : s.phase = .pad) (appended : s.append b = some s') :
      Effect .padb s { s' with padi := s'.padi + 1 }
  | ldw {s} (load : s.phase = .load) : Effect .ldw s s.loadWords
  | xpd {s} (t : BitVec 6) (expand : s.phase = .expand) : Effect (.xpd t) s (s.expandWord t)
  | ldv {s} (initv : s.phase = .initv) : Effect .ldv s s.loadWorking
  | rnd {s} (t : BitVec 6) (round : s.phase = .round) : Effect (.rnd t) s (s.roundAt t)
  | fld {s} (fold : s.phase = .fold) : Effect .fld s s.foldBack

/-- The frame of a command step adds its three effects to the command's own. -/
theorem effect_of_commandStep {i : Instr} {x : CmdWord} {body : State → Result} {s t : State}
    (h : commandStep i x body s = .next t)
    (own : legalIn i s.phase = true → body s = .next t → Effect i s t) : Effect i s t := by
  obtain ⟨busy, e⟩ | ⟨fault, e⟩ | ⟨-, -, legal, e⟩ | ⟨ready, noFault, illegal, e⟩ :=
    commandStep_cases i x body s <;> rw [e] at h
  · cases h; exact .held busy
  · cases h; exact .ignored fault
  · exact own legal h
  · cases h; exact .wrongPhase x ready noFault illegal

theorem effect_of_dataBody {b : Byte} {s t : State} (absorb : s.phase = .absorb)
    (h : dataBody b s = .next t) : Effect (.data b) s t := by
  unfold dataBody at h
  split at h
  · cases h; exact .overflow b _ absorb
  · cases appended : s.append b with
    | none => simp [appended] at h
    | some s' => simp only [appended] at h; cases h; exact .data b absorb appended

theorem effect_of_padbBody {s t : State} (pad : s.phase = .pad) (h : padbBody s = .next t) :
    Effect .padb s t := by
  unfold padbBody at h
  cases byte : padByte s.len s.padi.toNat with
  | none => simp [byte] at h
  | some b =>
    cases appended : s.append b with
    | none => simp [byte, appended] at h
    | some s' => simp only [byte, appended] at h; cases h; exact .padb b pad appended

theorem effect_of_exec {i : Instr} {s t : State} (h : exec i s = .next t) : Effect i s t := by
  cases i with
  | nop =>
    rw [exec_nop] at h
    exact effect_of_commandStep h fun legal own => by cases own; exact .nop legal
  | start =>
    rw [exec_start] at h
    exact effect_of_commandStep h fun legal own => by cases own; exact .start legal
  | data b =>
    rw [exec_data] at h
    exact effect_of_commandStep h fun legal => effect_of_dataBody (legalIn_data.mp legal)
  | finish =>
    rw [exec_finish] at h
    exact effect_of_commandStep h fun legal own => by cases own; exact .finish (legalIn_finish.mp legal)
  | rdhex k =>
    rw [exec_rdhex] at h
    exact effect_of_commandStep h fun legal own => by cases own; exact .rdhex k (legalIn_rdhex.mp legal)
  | padb =>
    rw [exec_padb] at h
    obtain ⟨selected, own⟩ := microStep_next h
    exact effect_of_padbBody ((selects_padb s).mp selected).1 own
  | ldw =>
    rw [exec_ldw] at h
    obtain ⟨selected, ⟨⟩⟩ := microStep_next h
    exact .ldw ((selects_ldw s).mp selected).1
  | xpd k =>
    rw [exec_xpd] at h
    obtain ⟨selected, ⟨⟩⟩ := microStep_next h
    exact .xpd k ((selects_xpd s k).mp selected).1
  | ldv =>
    rw [exec_ldv] at h
    obtain ⟨selected, ⟨⟩⟩ := microStep_next h
    exact .ldv ((selects_ldv s).mp selected).1
  | rnd k =>
    rw [exec_rnd] at h
    obtain ⟨selected, ⟨⟩⟩ := microStep_next h
    exact .rnd k ((selects_rnd s k).mp selected).1
  | fld =>
    rw [exec_fld] at h
    obtain ⟨selected, ⟨⟩⟩ := microStep_next h
    exact .fld ((selects_fld s).mp selected).1

/-! ### The frame of each register -/

/-- Append writes no byte of `BUF` but `BUF[FILL]`. -/
theorem append_buf_of_ne {s s' : State} {b : Byte} (h : s.append b = some s') (j : Fin 64)
    (ne : j.val ≠ s.fill.toNat) : s'.buf[j.val] = s.buf[j.val] := by
  obtain ⟨ok, rfl⟩ := append_eq_some.mp h
  exact Vector.getElem_set_ne ok j.isLt ne.symm

theorem wordAt_expandAt_of_ne (w : Vector Word 64) {j k : BitVec 6} (ne : j ≠ k) :
    wordAt (expandAt w k) j = wordAt w j :=
  Vector.getElem_set_ne k.isLt j.isLt fun h => ne (BitVec.eq_of_toNat_eq h.symm)

section Frames
variable {i : Instr} {s t : State}

/-- CAUSE and FCMD are written by fault entry alone. -/
theorem Effect.fault_registers (e : Effect i s t) :
    (t.cause = s.cause ∧ t.fcmd = s.fcmd) ∨ (s.phase ≠ .fault ∧ t.phase = .fault) := by
  cases e with
  | wrongPhase x _ noFault => exact .inr ⟨noFault, rfl⟩
  | overflow b x absorb => exact .inr ⟨by simp [absorb], rfl⟩
  | data b _ appended => simp [append_frame appended]
  | padb b _ appended => simp [append_frame appended]
  | _ => exact .inl ⟨rfl, rfl⟩

/-- `H` is written by START and in FOLD alone. -/
theorem Effect.h_cases (e : Effect i s t) :
    t.h = s.h ∨ (i = .start ∧ t.h = romIV) ∨ (s.phase = .fold ∧ t.h = addWords s.h s.v) := by
  cases e with
  | start => exact .inr (.inl ⟨rfl, rfl⟩)
  | fld fold => exact .inr (.inr ⟨fold, rfl⟩)
  | data b _ appended => simp [append_frame appended]
  | padb b _ appended => simp [append_frame appended]
  | _ => exact .inl rfl

/-- `BUF` is written in ABSORB and PAD alone. -/
theorem Effect.buf_eq (e : Effect i s t) (notAbsorb : s.phase ≠ .absorb) (notPad : s.phase ≠ .pad) :
    t.buf = s.buf := by
  cases e with
  | data b absorb => exact absurd absorb notAbsorb
  | padb b pad => exact absurd pad notPad
  | _ => rfl

/-- The step of a busy core leaves the response alone. -/
theorem Effect.rsp_of_busy (e : Effect i s t) (busy : s.cmdReady = false) : t.rsp = s.rsp := by
  have notReady : ¬ s.phase.ready = true := by simpa [State.cmdReady] using busy
  cases e with
  | ignored fault => simp [fault, Phase.ready] at notReady
  | wrongPhase x ready => exact absurd ready notReady
  | nop legal => exact absurd (ready_of_legalIn legal) notReady
  | start legal => exact absurd (ready_of_legalIn legal) notReady
  | overflow b x absorb => simp [absorb, Phase.ready] at notReady
  | data b absorb => simp [absorb, Phase.ready] at notReady
  | finish absorb => simp [absorb, Phase.ready] at notReady
  | rdhex k done => simp [done, Phase.ready] at notReady
  | padb b _ appended => simp [append_frame appended]
  | _ => rfl

/-- What a ready core performs responds with a digit for RDHEX in DONE and with 0x00 otherwise. -/
theorem Effect.rsp_of_ready (e : Effect i s t) (ready : s.cmdReady = true) :
    (∃ k, i = .rdhex k ∧ s.phase = .done ∧ t.rsp = some (hexChar s.h k)) ∨
    ((s.phase ≠ .done ∨ ∀ k, i ≠ .rdhex k) ∧ t.rsp = some 0x00) := by
  have isReady : s.phase.ready = true := ready
  cases e with
  | held busy => simp [busy] at ready
  | rdhex k done => exact .inl ⟨k, rfl, done, rfl⟩
  | ignored fault => simp [fault]
  | wrongPhase x _ _ illegal =>
    by_cases done : s.phase = .done
    · refine .inr ⟨.inr ?_, rfl⟩
      rintro k rfl
      simp [legalIn, done] at illegal
    · exact .inr ⟨.inl done, rfl⟩
  | padb b pad => simp [pad, Phase.ready] at isReady
  | ldw load => simp [load, Phase.ready] at isReady
  | xpd k expand => simp [expand, Phase.ready] at isReady
  | ldv initv => simp [initv, Phase.ready] at isReady
  | rnd k round => simp [round, Phase.ready] at isReady
  | fld fold => simp [fold, Phase.ready] at isReady
  | _ => simp

end Frames

/-- Settles O30, by the effects an answered instruction can have. -/
theorem instructionsWriteOnlyTheirRegisters : Obligations.InstructionsWriteOnlyTheirRegisters := by
  intro i s t h
  cases effect_of_exec h with
  | data b _ appended => simpa [append_frame appended] using append_buf_of_ne appended
  | padb b _ appended => simpa [append_frame appended] using append_buf_of_ne appended
  | xpd k => simp +contextual [wordAt_expandAt_of_ne]
  | wrongPhase x _ noFault => simp [noFault]
  | overflow b x absorb => simp [absorb]
  | _ => simp

/-- A reserved word leaves the datapath alone. -/
theorem rejectCommand_sameDatapath (x : CmdWord) (s : State) : SameDatapath (rejectCommand x s) s := by
  obtain ⟨-, h⟩ | ⟨-, h⟩ | ⟨-, -, h⟩ := rejectCommand_cases x s <;> rw [h] <;> simp [SameDatapath]

theorem rejectCommand_rsp {s : State} (ready : s.cmdReady = true) (x : CmdWord) :
    (rejectCommand x s).rsp = some 0x00 := by
  obtain ⟨busy, -⟩ | ⟨-, h⟩ | ⟨-, -, h⟩ := rejectCommand_cases x s
  · simp [busy] at ready
  all_goals rw [h]; rfl

theorem rejectCommand_fault_registers (x : CmdWord) (s : State) :
    ((rejectCommand x s).cause = s.cause ∧ (rejectCommand x s).fcmd = s.fcmd) ∨
    (s.phase ≠ .fault ∧ (rejectCommand x s).phase = .fault) := by
  obtain ⟨-, h⟩ | ⟨-, h⟩ | ⟨-, noFault, h⟩ := rejectCommand_cases x s <;> rw [h]
  · simp
  · simp
  · exact .inr ⟨noFault, rfl⟩

/-- An answered step, by its situation, with what the performed instruction can have done. -/
theorem step_next_cases {s s' : State} (h : step s = .next s') :
    (s.pins.rst = true ∧ s' = resetStep s.advance) ∨
    (s.pins.rst = false ∧ s.cmdReady = true ∧ s.pins.cmdValid = false ∧ s' = s.advance) ∨
    (∃ i, s.pins.rst = false ∧ s.cmdReady = true ∧ s.pins.cmdValid = true ∧
      decodeCmd s.pins.cmd = .instr i ∧ Effect i s.advance s') ∨
    (s.pins.rst = false ∧ s.cmdReady = true ∧ s.pins.cmdValid = true ∧
      decodeCmd s.pins.cmd = .rejected .reservedCommand ∧ s' = rejectCommand s.pins.cmd s.advance) ∨
    (∃ i, s.pins.rst = false ∧ s.cmdReady = false ∧ decodeUseq s.useq = .instr i ∧
      Effect i s.advance s') := by
  obtain ⟨rst, e⟩ | ⟨rst, ready, quiet, e⟩ | ⟨i, rst, ready, valid, command, e⟩ |
    ⟨rst, ready, valid, reserved, e⟩ | ⟨i, rst, busy, selected, e⟩ | ⟨-, -, -, e⟩ := step_situations s <;>
    rw [e] at h
  · cases h; exact .inl ⟨rst, rfl⟩
  · cases h; exact .inr (.inl ⟨rst, ready, quiet, rfl⟩)
  · exact .inr (.inr (.inl ⟨i, rst, ready, valid, command, effect_of_exec h⟩))
  · cases h; exact .inr (.inr (.inr (.inl ⟨rst, ready, valid, reserved, rfl⟩)))
  · exact .inr (.inr (.inr (.inr ⟨i, rst, busy, selected, effect_of_exec h⟩)))
  · cases h

/-- Settles O11: a step takes its response from the performed instruction, and the one before is gone. -/
theorem onlyAcceptedCommandsRespond : Obligations.OnlyAcceptedCommandsRespond := by
  intro s s' h
  obtain ⟨rst, rfl⟩ | ⟨rst, ready, quiet, rfl⟩ | ⟨i, rst, ready, valid, command, e⟩ |
    ⟨rst, ready, valid, reserved, rfl⟩ | ⟨i, rst, busy, selected, e⟩ := step_next_cases h
  · simp [rst]
  · simp [quiet]
  · refine ⟨by simp [rst, ready, valid], fun _ _ _ => ?_⟩
    obtain ⟨k, rfl, done, rsp⟩ | ⟨other, rsp⟩ := e.rsp_of_ready ready
    · simp [command, rsp, show s.phase = .done from done]
    · refine ⟨fun k done rdhex => ?_, fun _ => rsp⟩
      cases command.symm.trans rdhex
      obtain notDone | notRdhex := other
      · exact absurd done notDone
      · exact absurd rfl (notRdhex k)
  · refine ⟨by simp [rst, ready, valid], fun _ _ _ => ?_⟩
    simp [reserved, rejectCommand_rsp (s := s.advance) ready]
  · exact ⟨fun _ => e.rsp_of_busy busy, by simp [busy]⟩

/-- Settles O31, by who writes `H` (R39). -/
theorem hashStateIsUpdatedOnlyByAddition : Obligations.HashStateIsUpdatedOnlyByAddition := by
  intro s s' h
  obtain ⟨rst, -⟩ | ⟨-, -, -, rfl⟩ | ⟨i, -, ready, valid, command, e⟩ | ⟨-, -, -, -, rfl⟩ |
    ⟨i, -, -, selected, e⟩ := step_next_cases h
  · exact .inr (.inl rst)
  · exact .inl rfl
  · obtain same | ⟨rfl, iv⟩ | ⟨fold, sum⟩ := e.h_cases
    · exact .inl same
    · exact .inr (.inr (.inl ⟨ready, valid, command, iv⟩))
    · exact .inr (.inr (.inr ⟨fold, fun j => by simp [sum, addWords]⟩))
  · obtain ⟨same, -⟩ := rejectCommand_sameDatapath s.pins.cmd s.advance
    exact .inl same
  · obtain same | ⟨rfl, -⟩ | ⟨fold, sum⟩ := e.h_cases
    · exact .inl same
    · simpa using decodeUseq_instr selected
    · exact .inr (.inr (.inr ⟨fold, fun j => by simp [sum, addWords]⟩))

/-- Settles O32: none of the five phases is one in which `BUF` is written. -/
theorem blockIsReadOnlyWhileCompressed : Obligations.BlockIsReadOnlyWhileCompressed := by
  intro s s' noReset compressing h
  have notAbsorb : s.phase ≠ .absorb := by rintro p; simp [p] at compressing
  have notPad : s.phase ≠ .pad := by rintro p; simp [p] at compressing
  obtain ⟨rst, -⟩ | ⟨-, -, -, rfl⟩ | ⟨i, -, -, -, -, e⟩ | ⟨-, -, -, -, rfl⟩ | ⟨i, -, -, -, e⟩ :=
    step_next_cases h
  · simp [noReset] at rst
  · rfl
  · exact e.buf_eq notAbsorb notPad
  · obtain ⟨-, -, -, buf, -⟩ := rejectCommand_sameDatapath s.pins.cmd s.advance
    exact buf
  · exact e.buf_eq notAbsorb notPad

/-- Settles O33: but for reset only fault entry writes CAUSE and FCMD, and it never starts from FAULT. -/
theorem faultRegistersKeepTheFirstFault : Obligations.FaultRegistersKeepTheFirstFault := by
  intro s s' h changed
  have kept_or_entered : s.pins.rst = true ∨ (s'.cause = s.cause ∧ s'.fcmd = s.fcmd) ∨
      (s.phase ≠ .fault ∧ s'.phase = .fault) := by
    obtain ⟨rst, -⟩ | ⟨-, -, -, rfl⟩ | ⟨i, -, -, -, -, e⟩ | ⟨-, -, -, -, rfl⟩ | ⟨i, -, -, -, e⟩ :=
      step_next_cases h
    · exact .inl rst
    · exact .inr (.inl ⟨rfl, rfl⟩)
    · exact .inr e.fault_registers
    · exact .inr (rejectCommand_fault_registers _ s.advance)
    · exact .inr e.fault_registers
  obtain rst | ⟨cause, fcmd⟩ | entered := kept_or_entered
  · exact .inl rst
  · simp [cause, fcmd] at changed
  · exact .inr entered

end Sys2Proof.Machine
end

section
/-!
PROOFS. The ports, reset, and which agent moves (spec/10_state.md R30, R31, R42; spec/60_exceptions.md R132).
-/

namespace Sys2Proof.Machine

/-- Settles O46: a status byte per phase. -/
theorem statusShowsThePhase : Obligations.StatusShowsThePhase := by
  intro s
  unfold State.status State.cmdReady
  cases s.phase <;> decide

theorem sameRegisters_advance (s : State) : SameRegisters s.advance s := by
  simp [SameRegisters, SameDatapath]

/-- Settles O9: the six situations of a state, seen from reset, from the host and from the sequencer. -/
theorem exactlyOneAgentMoves : Obligations.ExactlyOneAgentMoves := by
  intro s
  refine ⟨cmdReady_iff s, ?_⟩
  obtain ⟨rst, h⟩ | ⟨rst, ready, quiet, h⟩ | ⟨i, rst, ready, valid, command, h⟩ |
    ⟨rst, ready, valid, reserved, h⟩ | ⟨i, rst, busy, selected, h⟩ | ⟨rst, busy, unselected, h⟩ := step_situations s
  · simp [rst, h]
  · simp [rst, ready, quiet, h, sameRegisters_advance]
  · simp [rst, ready, valid, command, h]
  · simp [rst, ready, valid, reserved, h]
  · simp [rst, busy, selected, h]
  · simp [rst, busy, unselected, h]

theorem status_of_idle {s : State} (idle : s.phase = .idle) : s.status = 0x10 := by
  simp only [State.status, State.cmdReady, idle]
  decide

/-- Settles O48: reset comes before every command (R132), and its step answers in every state. -/
theorem resetWinsInEveryState : Obligations.ResetWinsInEveryState := by
  intro s rst
  obtain ⟨-, reset, -⟩ := exactlyOneAgentMoves s
  have notHeld : s.holds = false := by simp [State.holds, rst]
  exact ⟨_, reset rst, rfl, rfl, rfl, rfl, rfl, status_of_idle rfl, rfl, rfl, by simp [notHeld]⟩

/-- Settles O49: in IDLE the invariant asks for no fault on record, and nothing else. -/
theorem resetStateIsIdleAndClean : Obligations.ResetStateIsIdleAndClean :=
  ⟨rfl, rfl, rfl, rfl, status_of_idle rfl, rfl, rfl⟩

end Sys2Proof.Machine
end

section
/-!
PROOFS. Words as a high part and a low part: concatenation, the masks that keep the high part, and the sums by which
the encoder puts an operand into the low part (spec/30_encoding.md R59, R60, R62, R63).
-/

namespace Sys2Proof

section Words
variable {m n : Nat}

theorem append_eq_append_iff {a c : BitVec m} {b d : BitVec n} : a ++ b = c ++ d ↔ a = c ∧ b = d := by
  constructor
  · intro h
    have high := congrArg (BitVec.extractLsb' n m) h
    have low := congrArg (BitVec.extractLsb' 0 n) h
    simp only [BitVec.extractLsb'_append_eq_left, BitVec.extractLsb'_append_eq_right] at high low
    exact ⟨high, low⟩
  · rintro ⟨rfl, rfl⟩
    rfl

/-- A word is `a ++ b` exactly when its high part is `a` and its low part is `b`. -/
theorem append_eq_iff {a : BitVec m} {b : BitVec n} {x : BitVec (m + n)} :
    a ++ b = x ↔ x.extractLsb' n m = a ∧ b = x.extractLsb' 0 n := by
  rw [← BitVec.extractLsb'_append_extractLsb' (x := x), append_eq_append_iff,
    BitVec.extractLsb'_append_extractLsb', eq_comm]

/-- Under a mask of the high part, a word is compared by that part. -/
theorem and_highMask_eq_iff {x : BitVec (m + n)} {a : BitVec m} :
    x &&& (BitVec.allOnes m ++ 0#n) = a ++ 0#n ↔ x.extractLsb' n m = a := by
  rw [← BitVec.extractLsb'_append_extractLsb' (x := x), BitVec.and_append, append_eq_append_iff,
    BitVec.extractLsb'_append_extractLsb']
  simp

/-- Adding an operand to a word whose low part is 0 puts it there. -/
theorem append_zero_add_setWidth (a : BitVec m) (b : BitVec n) :
    (a ++ 0#n) + b.setWidth (m + n) = a ++ b := by
  rw [BitVec.setWidth_eq_append (Nat.le_add_left n m), BitVec.add_eq_or_of_and_eq_zero] <;> simp

end Words
end Sys2Proof
end

section
/-!
PROOFS. Decoder and encoder, row by row, as conditions on the fields of a word, and that they are inverse to each
other (spec/30_encoding.md R62, R63, R66).
-/

namespace Sys2Proof

/-! ### The fields of a word -/

/-- The row of a command without an operand fixes both fields, so the whole word. -/
theorem cmdFields_eq_iff {c : CmdWord} {op : BitVec 4} {arg : Byte} :
    opField c = op ∧ argField c = arg ↔ c = op ++ arg := by
  rw [eq_comm (a := c), append_eq_iff, eq_comm (a := arg)]
  rfl

/-- The row of a micro-operation without an operand fixes both fields, so the whole word. -/
theorem useqFields_eq_iff {u : UseqWord} {p : BitVec 4} {t : BitVec 6} :
    phaseField u = p ∧ tField u = t ↔ u = p ++ t := by
  rw [eq_comm (a := u), append_eq_iff, eq_comm (a := t)]
  rfl

/-- RDHEX's conditions on `op` and `arg[7:6]` are one condition on the six bits above its operand. -/
theorem rdhexFields_iff {c : CmdWord} :
    opField c = 4 ∧ (argField c).extractLsb' 6 2 = 0 ↔ c.extractLsb' 6 6 = 16 := by
  have joined : opField c ++ (argField c).extractLsb' 6 2 = c.extractLsb' 6 6 := by
    rw [argField, BitVec.extractLsb'_extractLsb'_of_le (by decide)]
    exact BitVec.extractLsb'_append_extractLsb'_eq_extractLsb' rfl
  rw [← append_eq_append_iff, joined]
  rfl

theorem argField_index (c : CmdWord) : (argField c).extractLsb' 0 6 = c.extractLsb' 0 6 :=
  BitVec.extractLsb'_extractLsb'_of_le (by decide)

/-- The command decoder, row by row (R62). -/
theorem decodeCmd_by_rows (c : CmdWord) :
    decodeCmd c =
      if c = 0x000 then .instr .nop
      else if c = 0x100 then .instr .start
      else if opField c = 2 then .instr (.data (argField c))
      else if c = 0x300 then .instr .finish
      else if c.extractLsb' 6 6 = 16 then .instr (.rdhex (c.extractLsb' 0 6))
      else .rejected .reservedCommand := by
  simp only [decodeCmd, cmdFields_eq_iff, rdhexFields_iff, argField_index]
  rfl

/-! ### The words of the rows that have an operand -/

theorem encode_data_iff {b : Byte} {c : CmdWord} :
    encode (.data b) = .cmd c ↔ opField c = 2 ∧ b = argField c := by
  rw [encode, Encoding.cmd.injEq]
  exact append_zero_add_setWidth 2#4 b ▸ append_eq_iff

theorem encode_rdhex_iff {i : BitVec 6} {c : CmdWord} :
    encode (.rdhex i) = .cmd c ↔ c.extractLsb' 6 6 = 16 ∧ i = c.extractLsb' 0 6 := by
  rw [encode, Encoding.cmd.injEq]
  exact append_zero_add_setWidth 16#6 i ▸ append_eq_iff

theorem encode_xpd_iff {t : BitVec 6} {u : UseqWord} :
    encode (.xpd t) = .useq u ↔ phaseField u = 4 ∧ t = tField u := by
  rw [encode, Encoding.useq.injEq]
  exact append_zero_add_setWidth 4#4 t ▸ append_eq_iff

theorem encode_rnd_iff {t : BitVec 6} {u : UseqWord} :
    encode (.rnd t) = .useq u ↔ phaseField u = 6 ∧ t = tField u := by
  rw [encode, Encoding.useq.injEq]
  exact append_zero_add_setWidth 6#4 t ▸ append_eq_iff

/-! ### Decoding what the encoder writes -/

theorem decodeCmd_of_encode {i : Instr} {c : CmdWord} (h : encode i = .cmd c) : decodeCmd c = .instr i := by
  cases i with
  | nop | start | finish => cases h; rfl
  | data b =>
    obtain ⟨op, rfl⟩ := encode_data_iff.mp h
    simp [decodeCmd, op]
  | rdhex k =>
    obtain ⟨row, rfl⟩ := encode_rdhex_iff.mp h
    obtain ⟨op, high⟩ := rdhexFields_iff.mpr row
    simp [decodeCmd, op, high, argField_index]
  | padb | ldw | xpd t | ldv | rnd t | fld => cases h

theorem decodeUseq_of_encode {i : Instr} {u : UseqWord} (wf : WellFormed i) (h : encode i = .useq u) :
    decodeUseq u = .instr i := by
  cases i with
  | nop | start | data b | finish | rdhex k => cases h
  | padb | ldw | ldv | fld => cases h; rfl
  | xpd t =>
    obtain ⟨phase, rfl⟩ := encode_xpd_iff.mp h
    have range : 16 ≤ (tField u).toNat := of_decide_eq_true wf
    simp [decodeUseq, phase, range]
  | rnd t =>
    obtain ⟨phase, rfl⟩ := encode_rnd_iff.mp h
    simp [decodeUseq, phase]

theorem decode_encode {i : Instr} (wf : WellFormed i) : decode (encode i) = .instr i := by
  cases h : encode i with
  | cmd c => exact decodeCmd_of_encode h
  | useq u => exact decodeUseq_of_encode wf h

/-- Settles O1: the word of each row has the fields that select the row, and the operand in its place. -/
theorem decodeOfEncodeIsIdentity : Obligations.DecodeOfEncodeIsIdentity :=
  fun _ wf => decode_encode wf

/-! ### Encoding what the decoder reads -/

theorem encode_of_decodeCmd {c : CmdWord} {i : Instr} (h : decodeCmd c = .instr i) :
    WellFormed i ∧ encode i = .cmd c := by
  rw [decodeCmd_by_rows] at h
  split at h
  case isTrue nop => cases h; exact ⟨rfl, congrArg _ nop.symm⟩
  split at h
  case isTrue start => cases h; exact ⟨rfl, congrArg _ start.symm⟩
  split at h
  case isTrue data => cases h; exact ⟨rfl, encode_data_iff.mpr ⟨data, rfl⟩⟩
  split at h
  case isTrue finish => cases h; exact ⟨rfl, congrArg _ finish.symm⟩
  split at h
  case isTrue rdhex => cases h; exact ⟨rfl, encode_rdhex_iff.mpr ⟨rdhex, rfl⟩⟩
  cases h

theorem encode_of_decodeUseq {u : UseqWord} {i : Instr} (h : decodeUseq u = .instr i) :
    WellFormed i ∧ encode i = .useq u := by
  simp only [decodeUseq, useqFields_eq_iff] at h
  split at h
  case isTrue => cases h
  split at h
  case isTrue padb => cases h; exact ⟨rfl, congrArg _ padb.symm⟩
  split at h
  case isTrue ldw => cases h; exact ⟨rfl, congrArg _ ldw.symm⟩
  split at h
  case isTrue xpd =>
    obtain ⟨phase, range⟩ := xpd
    cases h
    exact ⟨decide_eq_true range, encode_xpd_iff.mpr ⟨phase, rfl⟩⟩
  split at h
  case isTrue ldv => cases h; exact ⟨rfl, congrArg _ ldv.symm⟩
  split at h
  case isTrue rnd => cases h; exact ⟨rfl, encode_rnd_iff.mpr ⟨rnd, rfl⟩⟩
  split at h
  case isTrue fld => cases h; exact ⟨rfl, congrArg _ fld.symm⟩
  cases h

/-- Settles O2, from the row the decoder took. -/
theorem encodeOfDecodeIsIdentity : Obligations.EncodeOfDecodeIsIdentity := by
  intro e i h
  cases e with
  | cmd c => exact encode_of_decodeCmd h
  | useq u => exact encode_of_decodeUseq h

theorem decodeCmd_eq_instr_iff {c : CmdWord} {i : Instr} : decodeCmd c = .instr i ↔ encode i = .cmd c :=
  ⟨fun h => (encode_of_decodeCmd h).2, decodeCmd_of_encode⟩

theorem decodeUseq_eq_instr_iff {u : UseqWord} {i : Instr} :
    decodeUseq u = .instr i ↔ WellFormed i ∧ encode i = .useq u :=
  ⟨encode_of_decodeUseq, fun ⟨wf, h⟩ => decodeUseq_of_encode wf h⟩

end Sys2Proof
end

section
/-!
PROOFS. The tables of spec/30_encoding.md read by mask and match (R62, R63), and the reserved command words (R64).
-/

namespace Sys2Proof

/-! ### Commands -/

/-- A chain of rows rejects exactly where the first row does not apply and the rest of the chain rejects. -/
theorem row_eq_rejected_iff {p : Prop} [Decidable p] {i : Instr} {rest : Decoded} {r : Reject} :
    (if p then Decoded.instr i else rest) = .rejected r ↔ ¬ p ∧ rest = .rejected r := by
  by_cases h : p
  · simp [h]
  · simp [h]

theorem decodeCmd_reserved_iff {c : CmdWord} :
    decodeCmd c = .rejected .reservedCommand ↔
      c ≠ 0x000 ∧ c ≠ 0x100 ∧ opField c ≠ 2 ∧ c ≠ 0x300 ∧ c.extractLsb' 6 6 ≠ 16 := by
  rw [decodeCmd_by_rows]
  simp only [row_eq_rejected_iff, ne_eq, and_true]

/-- The mask of a command without an operand keeps the whole word. -/
theorem and_cmdMask (c : CmdWord) : c &&& 0xFFF = c := BitVec.and_allOnes

/-- DATA's mask keeps `op`. -/
theorem and_opMask_iff {c : CmdWord} : c &&& 0xF00 = 0x200 ↔ opField c = 2 :=
  and_highMask_eq_iff (m := 4) (n := 8) (a := 2)

/-- RDHEX's mask keeps the six bits above its operand. -/
theorem and_rdhexMask_iff {c : CmdWord} : c &&& 0xFC0 = 0x400 ↔ c.extractLsb' 6 6 = 16 :=
  and_highMask_eq_iff (m := 6) (n := 6) (a := 16)

theorem decodeCmd_wholeWord_iff {c d : CmdWord} {i : Instr} (word : encode i = .cmd d) :
    decodeCmd c = .instr i ↔ c &&& 0xFFF = d := by
  rw [decodeCmd_eq_instr_iff, word, Encoding.cmd.injEq, and_cmdMask, eq_comm]

/-- Settles O3: a row's mask keeps the bits above its operand, and the encoder gives those bits of the row. -/
theorem commandWordDecodesByMaskAndMatch : Obligations.CommandWordDecodesByMaskAndMatch := by
  intro c
  refine ⟨decodeCmd_wholeWord_iff rfl, decodeCmd_wholeWord_iff rfl, fun b => ?data,
    decodeCmd_wholeWord_iff rfl, fun i => ?rdhex, ?reserved⟩
  case data =>
    rw [decodeCmd_eq_instr_iff, encode_data_iff, and_opMask_iff]
    rfl
  case rdhex => rw [decodeCmd_eq_instr_iff, encode_rdhex_iff, and_rdhexMask_iff]
  case reserved => simp only [decodeCmd_reserved_iff, and_cmdMask, ne_eq, and_opMask_iff, and_rdhexMask_iff]

/-! ### Sequencer words -/

/-- The mask of a micro-operation without an operand keeps the whole word. -/
theorem and_useqMask (u : UseqWord) : u &&& 0x3FF = u := BitVec.and_allOnes

/-- The mask of XPD and RND keeps `PHASE`. -/
theorem and_phaseMask_iff {u : UseqWord} (p : BitVec 4) : u &&& 0x3C0 = p ++ 0#6 ↔ phaseField u = p :=
  and_highMask_eq_iff (m := 4) (n := 6)

theorem decodeUseq_wholeWord_iff {u d : UseqWord} {i : Instr} (wf : WellFormed i) (word : encode i = .useq d) :
    decodeUseq u = .instr i ↔ u &&& 0x3FF = d := by
  rw [decodeUseq_eq_instr_iff, word, Encoding.useq.injEq, and_useqMask, eq_comm]
  exact and_iff_right wf

theorem decodeUseq_xpd_iff {u : UseqWord} {t : BitVec 6} :
    decodeUseq u = .instr (.xpd t) ↔ u &&& 0x3C0 = 0x100 ∧ t = u.extractLsb' 0 6 ∧ 16 ≤ t.toNat := by
  have row : u &&& 0x3C0 = 0x100 ↔ phaseField u = 4 := and_phaseMask_iff 4
  have range : WellFormed (.xpd t) ↔ 16 ≤ t.toNat := decide_eq_true_iff
  rw [decodeUseq_eq_instr_iff, encode_xpd_iff, row, range, and_comm, and_assoc]
  rfl

theorem decodeUseq_rnd_iff {u : UseqWord} {t : BitVec 6} :
    decodeUseq u = .instr (.rnd t) ↔ u &&& 0x3C0 = 0x180 ∧ t = u.extractLsb' 0 6 := by
  have row : u &&& 0x3C0 = 0x180 ↔ phaseField u = 6 := and_phaseMask_iff 6
  rw [decodeUseq_eq_instr_iff, encode_rnd_iff, row]
  exact and_iff_right rfl

/-! ### The reserved command words -/

/-- The ranges of R64, as the bits above the operands give them. -/
theorem decodeCmd_reserved_iff_ranges (c : CmdWord) :
    decodeCmd c = .rejected .reservedCommand ↔
      (0x001 ≤ c.toNat ∧ c.toNat ≤ 0x0FF) ∨ (0x101 ≤ c.toNat ∧ c.toNat ≤ 0x1FF) ∨
      (0x301 ≤ c.toNat ∧ c.toNat ≤ 0x3FF) ∨ (0x440 ≤ c.toNat ∧ c.toNat ≤ 0x4FF) ∨ 0x500 ≤ c.toNat := by
  have op : opField c = 2 ↔ c.toNat / 256 = 2 := by
    have := c.isLt
    simp [opField, ← BitVec.toNat_inj, Nat.shiftRight_eq_div_pow]
    omega
  have rdhex : c.extractLsb' 6 6 = 16 ↔ c.toNat / 64 = 16 := by
    have := c.isLt
    simp [← BitVec.toNat_inj, Nat.shiftRight_eq_div_pow]
    omega
  simp only [decodeCmd_reserved_iff, ne_eq, op, rdhex]
  bv_omega

/-! ### Their number, counted range by range -/

theorem countP_range'_add (p : Nat → Bool) (s m n : Nat) :
    (List.range' s (m + n)).countP p = (List.range' s m).countP p + (List.range' (s + m) n).countP p := by
  rw [← List.range'_append_1, List.countP_append]

theorem countP_range'_of_all {p : Nat → Bool} {s n : Nat} (all : ∀ k, s ≤ k → k < s + n → p k = true) :
    (List.range' s n).countP p = n := by
  have every : (List.range' s n).countP p = (List.range' s n).length :=
    List.countP_eq_length.mpr fun k mem =>
      have ⟨low, high⟩ := List.mem_range'_1.mp mem
      all k low high
  rw [every, List.length_range']

theorem countP_range'_of_no {p : Nat → Bool} {s n : Nat} (no : ∀ k, s ≤ k → k < s + n → ¬ p k = true) :
    (List.range' s n).countP p = 0 :=
  List.countP_eq_zero.mpr fun k mem =>
    have ⟨low, high⟩ := List.mem_range'_1.mp mem
    no k low high

/-- R64's 3773: legal and reserved words take turns in eight ranges. -/
theorem reserved_count :
    ((List.range 4096).filter fun n =>
      decodeCmd (BitVec.ofNat 12 n) = .rejected .reservedCommand).length = 3773 := by
  rw [← List.countP_eq_length_filter, List.range_eq_range',
    show 4096 = 1 + (255 + (1 + (255 + (257 + (255 + (64 + 3008)))))) from rfl]
  simp only [countP_range'_add]
  rw [countP_range'_of_no, countP_range'_of_all, countP_range'_of_no, countP_range'_of_all,
    countP_range'_of_no, countP_range'_of_all, countP_range'_of_no, countP_range'_of_all]
  all_goals
    intro k low high
    simp only [decide_eq_true_eq, decodeCmd_reserved_iff_ranges, BitVec.toNat_ofNat]
    omega

end Sys2Proof
end

section
/-!
PROOFS. What the core does with a decoded word: a reserved command raises IllegalCommand (R64), the sequencer word
selects the micro-operation (R63), a placed instruction is performed next (log 13), and the stops (log 9, log 10).
-/

namespace Sys2Proof.Machine

/-! ### Reserved command words -/

theorem step_of_reserved {s : State} (rst : s.pins.rst = false) (ready : s.cmdReady = true)
    (valid : s.pins.cmdValid = true) (reserved : decodeCmd s.pins.cmd = .rejected .reservedCommand) :
    step s = .next (rejectCommand s.pins.cmd s.advance) := by
  simp [step, nextAction, rst, ready, valid, reserved]

theorem rejectCommand_of_fault {s : State} (fault : s.phase = .fault) (x : CmdWord) :
    rejectCommand x s = s.respond 0x00 := by
  simp [rejectCommand, State.cmdReady, fault, Phase.ready]

theorem rejectCommand_of_ready {s : State} (ready : s.cmdReady = true) (noFault : s.phase ≠ .fault) (x : CmdWord) :
    rejectCommand x s = raiseFault .illegalCommand x s := by
  simp [rejectCommand, ready, noFault]

/-- Settles O4: outside FAULT the step of a reserved word is fault entry, in FAULT only a response. -/
theorem reservedCommandWordsFault : Obligations.ReservedCommandWordsFault := by
  refine ⟨decodeCmd_reserved_iff_ranges, reserved_count, fun s rst valid reserved => ⟨?raised, ?ignored⟩⟩
  case raised =>
    intro legal
    have ready : s.cmdReady = true := (cmdReady_iff s).mpr (legal.imp_right (Or.imp_right Or.inl))
    have noFault : s.phase ≠ .fault := fun fault => by simp [fault] at legal
    rw [step_of_reserved rst ready valid reserved, rejectCommand_of_ready (s := s.advance) ready noFault]
    rfl
  case ignored =>
    intro fault
    have ready : s.cmdReady = true := (cmdReady_iff s).mpr (by simp [fault])
    rw [step_of_reserved rst ready valid reserved, rejectCommand_of_fault (s := s.advance) fault]
    rfl

/-! ### The sequencer word -/

theorem decodeUseq_of_ready {s : State} (ready : s.cmdReady = true) :
    decodeUseq s.useq = .rejected .readyPhase := by
  rw [decodeUseq_useq]
  obtain idle | absorb | done | fault := (cmdReady_iff s).mp ready <;> simp [*]

theorem nextAction_of_busy {s : State} {i : Instr} (rst : s.pins.rst = false) (busy : s.cmdReady = false) :
    nextAction s = .perform i ↔ decodeUseq s.useq = .instr i := by
  simp [nextAction_perform, rst, busy]

/-- Settles O5: each row is the encoder's word under the row's mask; the rest is the decoder on `PHASE ‖ T`. -/
theorem sequencerWordSelectsMicroOperation : Obligations.SequencerWordSelectsMicroOperation :=
  ⟨fun _ =>
    ⟨decodeUseq_wholeWord_iff rfl rfl, decodeUseq_wholeWord_iff rfl rfl, fun _ => decodeUseq_xpd_iff,
      decodeUseq_wholeWord_iff rfl rfl, fun _ => decodeUseq_rnd_iff, decodeUseq_wholeWord_iff rfl rfl⟩,
    fun _ => decodeUseq_of_ready, fun _ _ => nextAction_of_busy, fun _ => inv_selects⟩

/-- Settles O6: the words are the encoder's. -/
theorem writtenOutWordsDecode : Obligations.WrittenOutWordsDecode :=
  ⟨decode_encode (i := .start) rfl, decode_encode (i := .data 0x61) rfl, decode_encode (i := .rdhex 63) rfl,
    decode_encode (i := .padb) rfl, decode_encode (i := .ldw) rfl, decode_encode (i := .xpd 16) rfl,
    decode_encode (i := .rnd 37) rfl⟩

/-! ### Placing an instruction -/

/-- A word that selects a micro-operation names a phase of the core. -/
theorem phaseField_of_selects {u : UseqWord} {i : Instr} (h : decodeUseq u = .instr i) :
    ∃ p : Phase, phaseField u = p.code := by
  have word := (decodeUseq_eq_instr_iff.mp h).2
  obtain rfl | rfl | ⟨t, rfl⟩ | rfl | ⟨t, rfl⟩ | rfl := decodeUseq_instr h
  · cases word; exact ⟨.pad, rfl⟩
  · cases word; exact ⟨.load, rfl⟩
  · exact ⟨.expand, (encode_xpd_iff.mp word).1⟩
  · cases word; exact ⟨.initv, rfl⟩
  · exact ⟨.round, (encode_rnd_iff.mp word).1⟩
  · cases word; exact ⟨.fold, rfl⟩

theorem nextAction_placed_cmd {c : CmdWord} {i : Instr} (command : decodeCmd c = .instr i) (s : State) :
    nextAction (placeEncoding (.cmd c) s) = .perform i := by
  have ready : (placeEncoding (.cmd c) s).cmdReady = true := by
    change (if s.cmdReady then s.phase else .idle).ready = true
    cases h : s.cmdReady
    · rfl
    · exact h
  exact nextAction_perform.mpr ⟨rfl, .inl ⟨ready, rfl, command⟩⟩

theorem nextAction_placed_useq {u : UseqWord} {i : Instr} (selected : decodeUseq u = .instr i) (s : State) :
    nextAction (placeEncoding (.useq u) s) = .perform i := by
  obtain ⟨p, code⟩ := phaseField_of_selects selected
  have placed : placeEncoding (.useq u) s = { s with host := quietPins :: s.host, phase := p, t := tField u } := by
    simp [placeEncoding, code, phaseOfCode_code]
  have word : (placeEncoding (.useq u) s).useq = u := by
    rw [placed, State.useq, ← code]
    exact BitVec.extractLsb'_append_extractLsb'
  have busy : (placeEncoding (.useq u) s).cmdReady = false := by
    refine Bool.eq_false_iff.mpr fun ready => ?_
    have nothing := decodeUseq_of_ready ready
    rw [word, selected] at nothing
    cases nothing
  refine nextAction_perform.mpr ⟨?_, .inr ⟨busy, word.symm ▸ selected⟩⟩
  rw [placed]
  rfl

/-- Settles O7: a command goes to the pins of a ready phase, a sequencer word into `PHASE` and `T`. -/
theorem placedInstructionIsPerformedNext : Obligations.PlacedInstructionIsPerformedNext := by
  intro s i wf
  have decoded := decode_encode wf
  cases h : encode i with
  | cmd c => rw [h] at decoded; exact nextAction_placed_cmd decoded s
  | useq u => rw [h] at decoded; exact nextAction_placed_useq decoded s

/-! ### The stops -/

theorem exec_of_useqFormat {i : Instr} {u : UseqWord} (format : encode i = .useq u) :
    ∃ body, ∀ s, exec i s = microStep i body s := by
  cases i with
  | nop | start | data b | finish | rdhex k => cases format
  | padb => exact ⟨_, exec_padb⟩
  | ldw => exact ⟨_, exec_ldw⟩
  | xpd t => exact ⟨_, exec_xpd t⟩
  | ldv => exact ⟨_, exec_ldv⟩
  | rnd t => exact ⟨_, exec_rnd t⟩
  | fld => exact ⟨_, exec_fld⟩

theorem microStep_of_not_selected {i : Instr} {body : State → Result} {s : State}
    (h : decodeUseq s.useq ≠ .instr i) : microStep i body s = .refused .notSelected := by
  simp [microStep, h]

theorem dataBody_of_full {s : State} (b : Byte) (notMax : s.len.toNat ≠ 2 ^ 64 - 8) (full : 64 ≤ s.fill.toNat) :
    dataBody b s = .fault .bufOverrun := by
  have notMax : s.len ≠ maxLen := fun h => notMax (congrArg BitVec.toNat h)
  simp [dataBody, notMax, append_of_ge full]

theorem exec_padb_of_pad {s : State} (pad : s.phase = .pad) (t0 : s.t = 0) : exec .padb s = padbBody s := by
  rw [exec_padb, microStep_of_selected ((selects_padb s).mpr ⟨pad, t0⟩)]

theorem padbBody_of_padi_ge {s : State} (beyond : padN s.len ≤ s.padi.toNat) :
    padbBody s = .fault .padByteOutOfRange := by
  have noByte : padByte s.len s.padi.toNat = none := by
    rw [← Option.not_isSome_iff_eq_none, padByte_isSome]
    omega
  simp [padbBody, noByte]

theorem padbBody_of_full {s : State} (inRange : s.padi.toNat < padN s.len) (full : 64 ≤ s.fill.toNat) :
    padbBody s = .fault .bufOverrun := by
  obtain ⟨b, byte⟩ := Option.isSome_iff_exists.mp ((padByte_isSome _ _).mpr inRange)
  simp [padbBody, byte, append_of_ge full]

/-- Settles O29, a stop at a time. -/
theorem stopsOutsideThePreconditions : Obligations.StopsOutsideThePreconditions := by
  refine ⟨fun i u s format unselected => ?_, fun s b absorb notMax full => ?_, fun s pad t0 beyond => ?_,
    fun s pad t0 inRange full => ?_⟩
  · obtain ⟨body, frame⟩ := exec_of_useqFormat format
    rw [frame, microStep_of_not_selected unselected]
  · rw [exec_data, commandStep_of_legal (legalIn_data.mpr absorb) ((cmdReady_iff s).mpr (by simp [absorb]))
      (by simp [absorb]), dataBody_of_full b notMax full]
  · rw [exec_padb_of_pad pad t0, padbBody_of_padi_ge beyond]
  · rw [exec_padb_of_pad pad t0, padbBody_of_full inRange full]

end Sys2Proof.Machine
end

section
/-!
PROOFS. The primitives bit by bit: a right rotate as a sum of bit positions modulo the width, the left rotate as a
right rotate, the shifts, SPLIT and the six round functions (spec/40_bitops.md R70 to R81).
-/

namespace Sys2Proof.Machine

/-! ### The rotates -/

section Rotates
variable {w : Nat} (x : BitVec w) (m n : Nat) (ok : PrimitiveWidth w)

/-- R71's ROTR is the library's right rotate: at `s = 0` the second shift of that one gives 0. -/
theorem rotr_eq_rotateRight : rotr x n ok = x.rotateRight n := by
  rw [rotr, BitVec.rotateRight_def]
  split
  next s0 => simp [s0]
  next => rfl

/-- Bit by bit (R71): the sum of positions either stays below `w`, or wraps around once. -/
theorem getLsbD_rotr {i : Nat} (inside : i < w) :
    (rotr x n ok).getLsbD i = x.getLsbD ((i + n % w) % w) := by
  have amount : n % w < w := Nat.mod_lt n (by omega)
  rw [rotr_eq_rotateRight, BitVec.getLsbD_rotateRight]
  rcases Nat.lt_or_ge i (w - n % w) with stays | wraps
  · rw [Nat.mod_eq_of_lt (by omega : i + n % w < w)]
    simp [stays, Nat.add_comm]
  · have wrapped : (i + n % w) % w = i - (w - n % w) := by
      rw [Nat.mod_eq_sub_mod (by omega), Nat.mod_eq_of_lt (by omega)]
      omega
    simp [wrapped, inside, Nat.not_lt.mpr wraps]

/-- The left rotate is a right rotate by `w − n mod w` (R72). -/
theorem rotl_eq_rotr : rotl x n ok = rotr x (w - n % w) ok := by
  have amount : n % w < w := Nat.mod_lt n (by omega)
  by_cases s0 : n % w = 0
  · simp [rotl, rotr, s0]
  · have other : (w - n % w) % w = w - n % w := Nat.mod_eq_of_lt (by omega)
    have back : w - (w - n % w) = n % w := by omega
    have notZero : w - n % w ≠ 0 := by omega
    simp only [rotl, rotr, other, back, s0, notZero, if_false]
    exact BitVec.or_comm _ _

/-- The amounts of successive right rotates add up. -/
theorem rotr_rotr : rotr (rotr x m ok) n ok = rotr x (m + n) ok := by
  refine BitVec.eq_of_getLsbD_eq fun i inside => ?_
  have position : (i + n % w) % w < w := Nat.mod_lt _ (by omega)
  rw [getLsbD_rotr _ _ ok inside, getLsbD_rotr _ _ ok position, getLsbD_rotr _ _ ok inside]
  congr 1
  simp [Nat.add_assoc, Nat.add_comm m n]

theorem rotr_of_dvd (turns : w ∣ n) : rotr x n ok = x := by
  simp [rotr, Nat.mod_eq_zero_of_dvd turns]

include ok in
/-- The amounts of ROTR and of ROTL seen as a right rotate make whole turns together. -/
theorem dvd_add_complement : w ∣ n + (w - n % w) := by
  have amount : n % w < w := Nat.mod_lt n (by omega)
  have atMost : n % w ≤ n := Nat.mod_le n w
  have parts : n + (w - n % w) = n - n % w + w := by omega
  rw [parts]
  exact Nat.dvd_add (Nat.dvd_sub_mod n) (Nat.dvd_refl w)

theorem rotl_rotr : rotl (rotr x n ok) n ok = x := by
  rw [rotl_eq_rotr, rotr_rotr, rotr_of_dvd _ _ _ (dvd_add_complement n ok)]

theorem rotr_rotl : rotr (rotl x n ok) n ok = x := by
  rw [rotl_eq_rotr, rotr_rotr, Nat.add_comm, rotr_of_dvd _ _ _ (dvd_add_complement n ok)]

/-- Bit by bit (R72): the bit of ROTL that the right rotate brings back to `i`. -/
theorem getLsbD_rotl {i : Nat} (inside : i < w) :
    (rotl x n ok).getLsbD ((i + n % w) % w) = x.getLsbD i := by
  rw [← getLsbD_rotr _ _ ok inside, rotr_rotl]

end Rotates

/-- Settles O34: both orders at any width of R70, here taken at each of the three. -/
theorem rotationInverseLaw : Obligations.RotationInverseLaw := by
  have law {w : Nat} {ok : PrimitiveWidth w} (x : BitVec w) (n : Nat) :
      rotl (rotr x n ok) n ok = x ∧ rotr (rotl x n ok) n ok = x :=
    ⟨rotl_rotr x n ok, rotr_rotl x n ok⟩
  exact ⟨law, law, law⟩

/-- Settles O35: the bits of ROTR, from them the bits of ROTL, and ROTL as ROTR. -/
theorem rotatesBitByBit : Obligations.RotatesBitByBit :=
  fun _ ok x n => ⟨fun _ inside => getLsbD_rotr x n ok inside, fun _ inside => getLsbD_rotl x n ok inside,
    rotl_eq_rotr x n ok⟩

/-! ### The shifts and SPLIT -/

/-- Settles O36: a logical right shift is a division by the power of 2. -/
theorem shiftsDivideByPowersOfTwo : Obligations.ShiftsDivideByPowersOfTwo :=
  fun x => ⟨Nat.shiftRight_eq_div_pow x.toNat 3, Nat.shiftRight_eq_div_pow x.toNat 10⟩

/-- Byte `j` of SPLIT (R75). -/
theorem split_getElem? {w : Nat} (x : BitVec w) (ok : PrimitiveWidth w) {j : Nat} (inside : j < w / 8) :
    (split x ok)[j]? = some ((x >>> (w - 8 - 8 * j)).setWidth 8) := by
  simp [split, inside]

/-- Settles O37: a byte is a shift, which divides, cut to 8 bits, which takes the remainder. -/
theorem splitIsBigEndian : Obligations.SplitIsBigEndian := by
  refine fun w ok x => ⟨split_length x ok, fun j inside => ?_⟩
  rw [split_getElem? x ok inside, Option.map_some, BitVec.toNat_setWidth, BitVec.toNat_ushiftRight,
    Nat.shiftRight_eq_div_pow]

/-! ### The round functions -/

theorem getLsbD_ch (x y z : Word) {i : Nat} (inside : i < 32) :
    (ch x y z).getLsbD i = if x.getLsbD i then y.getLsbD i else z.getLsbD i := by
  simp only [ch, BitVec.getLsbD_xor, BitVec.getLsbD_and, BitVec.getLsbD_not, inside, decide_true, Bool.true_and]
  cases x.getLsbD i <;> simp

theorem getLsbD_maj (x y z : Word) (i : Nat) :
    (maj x y z).getLsbD i =
      ((x.getLsbD i && y.getLsbD i) ^^ (x.getLsbD i && z.getLsbD i) ^^ (y.getLsbD i && z.getLsbD i)) := by
  simp [maj]

/-- The eight cases of R77. -/
theorem majority_iff (a b c : Bool) :
    ((a && b) ^^ (a && c) ^^ (b && c)) = true ↔ 2 ≤ a.toNat + b.toNat + c.toNat := by
  revert a b c
  decide

/-- Settles O38: CH splits on the bit of `x`, MAJ on the eight cases of three bits. -/
theorem chooseAndMajorityBitByBit : Obligations.ChooseAndMajorityBitByBit :=
  fun x y z i inside => ⟨getLsbD_ch x y z inside, by rw [getLsbD_maj, majority_iff]⟩

/-- A right shift brings a bit from above, and 0 where there is none (R74). -/
theorem getLsbD_ushiftRight_word (x : Word) (n i : Nat) :
    (x >>> n).getLsbD i = (decide (i < 32 - n) && x.getLsbD (i + n)) := by
  rw [BitVec.getLsbD_ushiftRight, Nat.add_comm]
  by_cases inside : i < 32 - n
  · simp [inside]
  · simp [inside, BitVec.getLsbD_of_ge x (i + n) (by omega)]

/-- Settles O39: the exclusive or is taken bit by bit, and each rotate and shift brings its bit. -/
theorem sigmaFunctionsBitByBit : Obligations.SigmaFunctionsBitByBit := by
  intro x i inside
  have rotated (n : Nat) (ok : PrimitiveWidth 32) : (rotr x n ok).getLsbD i = x.getLsbD ((i + n % 32) % 32) :=
    getLsbD_rotr x n ok inside
  refine ⟨?_, ?_, ?_, ?_⟩
  · simp only [bsig0, BitVec.getLsbD_xor, rotated]
  · simp only [bsig1, BitVec.getLsbD_xor, rotated]
  · simp only [ssig0, shr3, BitVec.getLsbD_xor, rotated, getLsbD_ushiftRight_word]
  · simp only [ssig1, shr10, BitVec.getLsbD_xor, rotated, getLsbD_ushiftRight_word]

end Sys2Proof.Machine
end

section
/-!
PROOFS. LDW: its enabled step, and the words of ToWords as numbers (spec/41_block.md R87, R88; the byte order is
R45 of spec/20_memory.md).
-/

namespace Sys2Proof.Machine

theorem toNat_append_eq_add {m n : Nat} (x : BitVec m) (y : BitVec n) :
    (x ++ y).toNat = x.toNat * 2 ^ n + y.toNat := by
  rw [BitVec.toNat_append, ← Nat.shiftLeft_add_eq_or_of_lt y.isLt, Nat.shiftLeft_eq]

/-- R45, R11: the byte at the lowest index is the most significant. -/
theorem toNat_memRead4 (b : Vector Byte 64) (i : Fin 16) :
    (memRead4 b i).toNat = b[4 * i.val].toNat * 2 ^ 24 + b[4 * i.val + 1].toNat * 2 ^ 16 +
      b[4 * i.val + 2].toNat * 2 ^ 8 + b[4 * i.val + 3].toNat := by
  simp only [memRead4, toNat_append_eq_add]
  omega

theorem toWords_getElem_of_lt (b : Vector Byte 64) (i : Fin 16) :
    (toWords b)[i.val] = memRead4 b i := by
  simp [toWords]

theorem toWords_getElem_of_ge (b : Vector Byte 64) (i : Fin 64) (beyond : 16 ≤ i.val) :
    (toWords b)[i.val] = 0 := by
  simp [toWords, Nat.not_lt.mpr beyond]

theorem exec_ldw_of_load {s : State} (load : s.phase = .load) (t0 : s.t = 0) :
    exec .ldw s = .next s.loadWords := by
  rw [exec_ldw, microStep_of_selected ((selects_ldw s).mpr ⟨load, t0⟩)]

/-- Settles O24: the words LDW loads are those of ToWords. -/
theorem ldwLoadsTheBlock : Obligations.LdwLoadsTheBlock := by
  refine ⟨rfl, fun s load t0 => ⟨toWords s.buf, exec_ldw_of_load load t0, fun i => ?_, toWords_getElem_of_ge s.buf⟩⟩
  rw [toWords_getElem_of_lt, toNat_memRead4]

end Sys2Proof.Machine
end

section
/-!
PROOFS. The padding: the pad bytes one by one and as the list that Pad appends, the number of blocks, and PADB
(spec/42_padding.md R90 to R96).
-/

namespace Sys2Proof.Machine

/-! ### The pad bytes (R95) -/

/-- The pad bytes for the bit length `len` in order: 0x80, `PADK` zeros, the length field. -/
def padBytes (len : BitVec 64) : List Byte := [0x80] ++ List.replicate (padK len) 0x00 ++ split len

theorem padBytes_length (len : BitVec 64) : (padBytes len).length = padN len := by
  simp [padBytes, padN, split_length]

theorem padByte_zero (len : BitVec 64) : padByte len 0 = some 0x80 := rfl

theorem padByte_of_le {len : BitVec 64} {j : Nat} (notFirst : 1 ≤ j) (le : j ≤ padK len) :
    padByte len j = some 0x00 := by
  simp [padByte, Nat.ne_of_gt notFirst, le]

theorem padByte_of_gt {len : BitVec 64} {j : Nat} (gt : padK len < j) :
    padByte len j = (split len)[j - padK len - 1]? := by
  simp [padByte, Nat.ne_zero_of_lt gt, Nat.not_le.mpr gt]

theorem padByte_eq_getElem? (len : BitVec 64) (j : Nat) : padByte len j = (padBytes len)[j]? := by
  have zeros : ([0x80] ++ List.replicate (padK len) (0x00 : Byte)).length = padK len + 1 := by simp
  obtain gt | le := Nat.lt_or_ge (padK len) j
  · rw [padByte_of_gt gt, padBytes, List.getElem?_append_right (by omega), zeros, Nat.sub_sub]
  · rw [padBytes, List.getElem?_append_left (by omega)]
    cases j with
    | zero => rfl
    | succ j => rw [padByte_of_le (Nat.le_add_left 1 j) le]; simp [Nat.lt_of_succ_le le]

/-! ### Pad as a list (R90) -/

section Padded
variable {m : List Byte} (ok : 8 * m.length < 2 ^ 64)
include ok

theorem pad_eq_append_padBytes : pad m = m ++ padBytes (bitLength m) := by
  simp only [pad_of_encodable ok, padBytes, List.append_assoc]

theorem pad_length : (pad m).length = m.length + padN (bitLength m) := by
  rw [pad_eq_append_padBytes ok, List.length_append, padBytes_length]

/-- The bytes after the message are the pad bytes. -/
theorem pad_getElem? (j : Nat) : (pad m)[m.length + j]? = padByte (bitLength m) j := by
  rw [pad_eq_append_padBytes ok, List.getElem?_append_right (Nat.le_add_right ..), Nat.add_sub_cancel_left,
    padByte_eq_getElem?]

theorem toNat_bitLength : (bitLength m).toNat = 8 * m.length := Nat.mod_eq_of_lt ok

/-- R91 in bytes. -/
theorem padK_bitLength : padK (bitLength m) = (119 - m.length % 64) % 64 := by
  rw [padK, toNat_bitLength ok]
  omega

end Padded

/-- Settles O42: PadByte answers the elements of the list that Pad appends. -/
theorem padBytesMakeThePadding : Obligations.PadBytesMakeThePadding := by
  refine ⟨fun len => ⟨padByte_zero len, fun j => padByte_of_le, fun j gt _ => padByte_of_gt gt, fun j => ?_⟩,
    fun m ok => ?_⟩
  · rw [Option.ne_none_iff_isSome, padByte_isSome]
  · rw [pad_eq_append_padBytes ok, List.map_append, ← padBytes_length, funext (padByte_eq_getElem? _)]
    congr 1
    apply List.ext_getElem <;> simp

/-- Settles O41: the padded length is the message's and `PADN`, which `padK_bitLength` gives by residues. -/
theorem paddingFillsWholeBlocks : Obligations.PaddingFillsWholeBlocks := by
  intro m ok
  have length : (pad m).length = m.length + 1 + padK (bitLength m) + 8 := by
    rw [pad_length ok, padN]
    omega
  have zeros := padK_bitLength ok
  have blocks : blockCount m = (pad m).length / 64 := rfl
  refine ⟨length, by omega, by omega, by omega, ?_, ?_, pad_getElem? ok 0, fun j inside => ?_, ?_, by omega,
    by omega⟩
  · split <;> omega
  · rw [pad_eq_append_padBytes ok, List.take_left]
  · rw [Nat.add_assoc, pad_getElem? ok, padByte_of_le (by omega) (by omega)]
  · rw [length, Nat.add_sub_cancel, pad_of_encodable ok]
    exact List.drop_left' (by simp only [List.length_append, List.length_singleton, List.length_replicate])

/-! ### PADK and PADN (R94) -/

/-- The model's natural-number form of PADK is the formula with the non-negative remainder of R8. -/
theorem padK_eq_emod (len : BitVec 64) :
    (padK len : Int) = ((440 - (len.toNat % 512 : Nat) : Int) % 512) / 8 := by
  unfold padK
  omega

/-- LEN is written by DATA in ABSORB and by START alone (R39). -/
theorem Effect.len_eq {i : Instr} {s t : State} (e : Effect i s t) (notStart : i ≠ .start)
    (notAbsorb : s.phase ≠ .absorb) : t.len = s.len := by
  cases e with
  | start => exact absurd rfl notStart
  | data b absorb => exact absurd absorb notAbsorb
  | padb b _ appended => simp [append_frame appended]
  | _ => rfl

theorem State.Inv.not_absorb_of_fin {s : State} (inv : s.Inv) (fin : s.fin = true) : s.phase ≠ .absorb := by
  intro absorb
  simp [State.Inv, absorb, fin] at inv

/-- After FINISH no step but reset and START writes LEN (R24). -/
theorem step_len_of_fin {s s' : State} (inv : s.Inv) (fin : s.fin = true) (noReset : s.pins.rst = false)
    (notStart : nextAction s ≠ .perform .start) (h : step s = .next s') : s'.len = s.len := by
  have notAbsorb := inv.not_absorb_of_fin fin
  obtain ⟨rst, -⟩ | ⟨-, -, -, rfl⟩ | ⟨i, rst, ready, valid, command, e⟩ | ⟨-, -, -, -, rfl⟩ |
    ⟨i, rst, busy, selected, e⟩ := step_next_cases h
  · simp [noReset] at rst
  · rfl
  · refine e.len_eq ?_ notAbsorb
    rintro rfl
    exact notStart (nextAction_perform.mpr ⟨rst, .inl ⟨ready, valid, command⟩⟩)
  · obtain ⟨-, -, -, -, -, len, -⟩ := rejectCommand_sameDatapath s.pins.cmd s.advance
    exact len
  · refine e.len_eq ?_ notAbsorb
    rintro rfl
    exact notStart (nextAction_perform.mpr ⟨rst, .inr ⟨busy, selected⟩⟩)

/-- Settles O40: PADK and PADN read LEN alone, and LEN is kept. -/
theorem padCountFollowsTheModularFormula : Obligations.PadCountFollowsTheModularFormula := by
  refine ⟨fun len => ⟨padK_eq_emod len, padK_le len, rfl, Nat.le_add_left .., padN_le len⟩, by decide,
    fun s s' inv fin noReset notStart h => ?_⟩
  rw [step_len_of_fin inv fin noReset notStart h]
  exact ⟨rfl, rfl⟩

/-! ### PADB (R96) -/

/-- A byte of the length field as a number, most significant first (R75). -/
theorem toNat_lengthByte {len : BitVec 64} {j : Nat} {b : Byte} (gt : padK len < j)
    (byte : padByte len j = some b) : b.toNat = len.toNat / 256 ^ (8 + padK len - j) % 256 := by
  have inRange : j < padN len := (padByte_isSome len j).mp (by simp [byte])
  have inside : j - padK len - 1 < 64 / 8 := by unfold padN at inRange; omega
  have shift : 64 - 8 - 8 * (j - padK len - 1) = 8 * (8 + padK len - j) := by omega
  rw [padByte_of_gt gt, split_getElem? len (by decide) inside, shift] at byte
  cases byte
  rw [BitVec.toNat_setWidth, BitVec.toNat_ushiftRight, Nat.shiftRight_eq_div_pow, Nat.pow_mul]

theorem phaseAfterAppend_eq (fill : BitVec 7) (p : Phase) :
    phaseAfterAppend fill p = if fill.toNat = 63 then .load else p := by
  obtain ⟨last, next⟩ | ⟨notLast, next⟩ := phaseAfterAppend_cases fill p
  · rw [next, if_pos last]
  · rw [next, if_neg notLast]

theorem padbBody_of_padByte {s : State} {b : Byte} (byte : padByte s.len s.padi.toNat = some b)
    (ok : s.fill.toNat < 64) :
    padbBody s = .next { s with
      buf := s.buf.set s.fill.toNat b ok
      fill := s.fill + 1
      padi := s.padi + 1
      phase := phaseAfterAppend s.fill s.phase } := by
  simp [padbBody, byte, append_of_lt ok]

/-- Settles O23: PADB appends `PadByte(PADI)`, which exists, and its value is that of the range `PADI` is in. -/
theorem padbAppendsThePadByte : Obligations.PadbAppendsThePadByte := by
  refine ⟨rfl, fun s ok pad t0 inRange => ?_⟩
  obtain ⟨b, byte⟩ := Option.isSome_iff_exists.mp ((padByte_isSome _ _).mpr inRange)
  refine ⟨b, ?_, fun first => ?_, fun notFirst le => ?_, fun gt => toNat_lengthByte gt byte⟩
  · rw [exec_padb_of_pad pad t0, padbBody_of_padByte byte ok, phaseAfterAppend_eq, pad]
  · rw [first] at byte
    exact Option.some.inj (byte.symm.trans (padByte_zero s.len))
  · exact Option.some.inj (byte.symm.trans (padByte_of_le notFirst le))

end Sys2Proof.Machine
end

section
/-!
PROOFS. The message schedule: the recurrence as a number, one step of the expansion, the whole expansion, and XPD
(spec/43_schedule.md R98 to R100).
-/

namespace Sys2Proof.Machine

/-! ### The recurrence at one index -/

theorem toNat_scheduleWord (w : Vector Word 64) (t : BitVec 6) :
    (scheduleWord w t).toNat = ((wordAt w (t - 16)).toNat + (wordAt w (t - 7)).toNat +
      (ssig0 (wordAt w (t - 15))).toNat + (ssig1 (wordAt w (t - 2))).toNat) % 2 ^ 32 := by
  simp only [scheduleWord, BitVec.toNat_add, Nat.mod_add_mod]

/-- The indices of the recurrence do not wrap: R98 takes at most 16 off a `t` of at least 16. -/
theorem toNat_sub_lt {t d : BitVec 6} (positive : 0 < d.toNat) (le : d.toNat ≤ t.toNat) :
    (t - d).toNat < t.toNat := by
  rw [BitVec.toNat_sub_of_le (BitVec.le_def.mpr le)]
  omega

/-- From 16 on the recurrence reads words below `t` only. -/
theorem scheduleWord_congr {w w' : Vector Word 64} {t : BitVec 6} (range : 16 ≤ t.toNat)
    (below : ∀ j : BitVec 6, j.toNat < t.toNat → wordAt w j = wordAt w' j) :
    scheduleWord w t = scheduleWord w' t := by
  have read (d : BitVec 6) (positive : 0 < d.toNat) (le : d.toNat ≤ 16) : wordAt w (t - d) = wordAt w' (t - d) :=
    below _ (toNat_sub_lt positive (Nat.le_trans le range))
  simp only [scheduleWord, read 16 (by decide) (by decide), read 7 (by decide) (by decide),
    read 15 (by decide) (by decide), read 2 (by decide) (by decide)]

theorem wordAt_expandAt_self (w : Vector Word 64) (t : BitVec 6) :
    wordAt (expandAt w t) t = scheduleWord w t :=
  Vector.getElem_set_self t.isLt

/-! ### XPD -/

theorem exec_xpd_of_expand {s : State} {t : BitVec 6} (expand : s.phase = .expand) (current : s.t = t)
    (range : 16 ≤ t.toNat) : exec (.xpd t) s = .next (s.expandWord t) := by
  rw [exec_xpd, microStep_of_selected ((selects_xpd s t).mpr ⟨expand, current, range⟩)]

/-- Settles O25: the words XPD leaves are those of one step of the expansion. -/
theorem xpdExpandsOneWord : Obligations.XpdExpandsOneWord := by
  refine ⟨fun _ => rfl, fun s t expand current range => ⟨expandAt s.w t, ?_, ?_, fun j => wordAt_expandAt_of_ne s.w⟩⟩
  · rw [exec_xpd_of_expand expand current range, State.expandWord, expand]
  · rw [wordAt_expandAt_self, toNat_scheduleWord]

/-! ### Expand -/

/-- The schedule after the first `n` steps of Expand: words 16 to `15 + n` are written. -/
def expandSteps (x : Vector Word 64) (n : Nat) : Vector Word 64 :=
  (List.range n).foldl (fun w j => expandAt w (BitVec.ofNat 6 (16 + j))) x

theorem expandSteps_zero (x : Vector Word 64) : expandSteps x 0 = x := rfl

theorem expandSteps_succ (x : Vector Word 64) (n : Nat) :
    expandSteps x (n + 1) = expandAt (expandSteps x n) (BitVec.ofNat 6 (16 + n)) := by
  simp only [expandSteps, List.range_succ, List.foldl_append, List.foldl_cons, List.foldl_nil]

theorem expand_eq_expandSteps (x : Vector Word 64) : expand x = expandSteps x 48 := rfl

/-- No step after the first `n` writes a word below `16 + n`. -/
theorem wordAt_expandSteps_of_lt (x : Vector Word 64) {n m : Nat} (le : n ≤ m) (bound : m ≤ 48) {j : BitVec 6}
    (below : j.toNat < 16 + n) : wordAt (expandSteps x m) j = wordAt (expandSteps x n) j := by
  induction le with
  | refl => rfl
  | @step m le ih =>
    have le : n ≤ m := le
    have index : (BitVec.ofNat 6 (16 + m)).toNat = 16 + m := Nat.mod_eq_of_lt (by omega)
    have ne : j ≠ BitVec.ofNat 6 (16 + m) := fun h => by rw [h, index] at below; omega
    rw [expandSteps_succ, wordAt_expandAt_of_ne _ ne, ih (by omega)]

/-- Expand ends with the word that its first `n` steps leave below `16 + n`. -/
theorem wordAt_expand_of_lt (x : Vector Word 64) {n : Nat} (le : n ≤ 48) {j : BitVec 6} (below : j.toNat < 16 + n) :
    wordAt (expand x) j = wordAt (expandSteps x n) j := by
  rw [expand_eq_expandSteps, wordAt_expandSteps_of_lt x le (Nat.le_refl 48) below]

theorem wordAt_expand_of_lt_sixteen (x : Vector Word 64) {t : BitVec 6} (kept : t.toNat < 16) :
    wordAt (expand x) t = wordAt x t := by
  rw [wordAt_expand_of_lt x (Nat.zero_le 48) kept, expandSteps_zero]

/-- The recurrence (R98): word `t` is written from words that no later step writes. -/
theorem wordAt_expand_of_ge_sixteen (x : Vector Word 64) {t : BitVec 6} (range : 16 ≤ t.toNat) :
    wordAt (expand x) t = scheduleWord (expand x) t := by
  obtain ⟨n, index⟩ := Nat.exists_eq_add_of_le range
  have last : n + 1 ≤ 48 := by omega
  have t_eq : t = BitVec.ofNat 6 (16 + n) := by rw [← index, BitVec.ofNat_toNat, BitVec.setWidth_eq]
  calc wordAt (expand x) t
    _ = wordAt (expandSteps x (n + 1)) t := wordAt_expand_of_lt x last (by omega)
    _ = scheduleWord (expandSteps x n) t := by rw [expandSteps_succ, ← t_eq, wordAt_expandAt_self]
    _ = scheduleWord (expand x) t :=
      scheduleWord_congr range fun j below => (wordAt_expand_of_lt x (by omega) (by omega)).symm

theorem words_ext {w w' : Vector Word 64} (h : ∀ t, wordAt w t = wordAt w' t) : w = w' :=
  Vector.ext fun i inside => h (BitVec.ofNatLT i inside)

/-- Expand depends on the first sixteen words only: the recurrence gives the others, by induction on the index. -/
theorem expand_congr {x y : Vector Word 64} (first : ∀ t : BitVec 6, t.toNat < 16 → wordAt x t = wordAt y t) :
    expand x = expand y := by
  refine words_ext fun t => ?_
  induction t using (measure BitVec.toNat).wf.induction with
  | h t ih =>
    obtain kept | range := Nat.lt_or_ge t.toNat 16
    · rw [wordAt_expand_of_lt_sixteen x kept, wordAt_expand_of_lt_sixteen y kept, first t kept]
    · rw [wordAt_expand_of_ge_sixteen x range, wordAt_expand_of_ge_sixteen y range]
      exact scheduleWord_congr range ih

/-- Settles O43, a lemma for each part. -/
theorem expandSatisfiesTheRecurrence : Obligations.ExpandSatisfiesTheRecurrence := by
  refine fun x => ⟨fun t => wordAt_expand_of_lt_sixteen x, fun t range => ?_, fun y => expand_congr⟩
  rw [wordAt_expand_of_ge_sixteen x range, toNat_scheduleWord]

end Sys2Proof.Machine
end

section
/-!
PROOFS. LDV, RND and FLD, each as its rule on the registers (spec/44_compression.md R105 to R108).
-/

namespace Sys2Proof.Machine

/-! ### LDV -/

theorem exec_ldv_of_initv {s : State} (initv : s.phase = .initv) (t0 : s.t = 0) :
    exec .ldv s = .next s.loadWorking := by
  rw [exec_ldv, microStep_of_selected ((selects_ldv s).mpr ⟨initv, t0⟩)]

/-- Settles O26: LDV's own rule is the whole effect. -/
theorem ldvCopiesTheHashState : Obligations.LdvCopiesTheHashState :=
  ⟨rfl, fun _ => exec_ldv_of_initv⟩

/-! ### RND -/

theorem exec_rnd_of_round {s : State} {t : BitVec 6} (round : s.phase = .round) (current : s.t = t) :
    exec (.rnd t) s = .next (s.roundAt t) := by
  rw [exec_rnd, microStep_of_selected ((selects_rnd s t).mpr ⟨round, current⟩)]

theorem toNat_roundT1 (k wt : Word) (v : Vector Word 8) :
    (roundT1 k wt v).toNat = (v[7].toNat + (bsig1 v[4]).toNat + (ch v[4] v[5] v[6]).toNat +
      k.toNat + wt.toNat) % 2 ^ 32 := by
  simp only [roundT1, BitVec.toNat_add, Nat.mod_add_mod]

theorem toNat_roundT2 (v : Vector Word 8) :
    (roundT2 v).toNat = ((bsig0 v[0]).toNat + (maj v[0] v[1] v[2]).toNat) % 2 ^ 32 :=
  BitVec.toNat_add _ _

/-- Settles O27: the new registers are those of `roundStep`, two of them sums and six of them copies. -/
theorem rndPerformsOneRound : Obligations.RndPerformsOneRound := by
  refine ⟨fun _ => rfl, fun s t round current =>
    ⟨roundAt s.w s.v t, ?effect, ?a, rfl, rfl, rfl, ?e, rfl, rfl, rfl⟩⟩
  case effect => rw [exec_rnd_of_round round current, State.roundAt, round]
  case a =>
    rw [← toNat_roundT1, ← toNat_roundT2]
    exact BitVec.toNat_add _ _
  case e =>
    rw [← toNat_roundT1]
    exact BitVec.toNat_add _ _

/-! ### FLD -/

theorem exec_fld_of_fold {s : State} (fold : s.phase = .fold) (t0 : s.t = 0) :
    exec .fld s = .next s.foldBack := by
  rw [exec_fld, microStep_of_selected ((selects_fld s).mpr ⟨fold, t0⟩)]

theorem toNat_addWords (x y : Vector Word 8) (i : Fin 8) :
    (addWords x y)[i.val].toNat = (x[i.val].toNat + y[i.val].toNat) % 2 ^ 32 := by
  rw [addWords, Vector.getElem_zipWith, BitVec.toNat_add]

/-- Settles O28: the fold is `addWords`, and the phase is the one `phaseAfterFold` chooses. -/
theorem fldFoldsAndChoosesThePhase : Obligations.FldFoldsAndChoosesThePhase :=
  ⟨rfl, fun s fold t0 => ⟨addWords s.h s.v, exec_fld_of_fold fold t0, toNat_addWords s.h s.v⟩⟩

end Sys2Proof.Machine
end

section
/-!
PROOFS. Runs of the busy core with no reset (spec/45_pipeline.md R113, R119, R147): the host's list and the
registers move independently, so such a run is a chain of micro-operations on the registers.
-/

namespace Sys2Proof.Machine

/-! ### The ports of a busy core -/

/-- What a step of the busy core without reset does to the ports: a presented command is held, and the
response of the step before is gone (R113, R148; log 2, log 3). -/
def State.tick (s : State) : State :=
  { s with host := if s.pins.cmdValid then s.host else s.host.tail, rsp := none }

@[simp] theorem State.tick_buf (s : State) : s.tick.buf = s.buf := rfl
@[simp] theorem State.tick_fill (s : State) : s.tick.fill = s.fill := rfl
@[simp] theorem State.tick_len (s : State) : s.tick.len = s.len := rfl
@[simp] theorem State.tick_padi (s : State) : s.tick.padi = s.padi := rfl
@[simp] theorem State.tick_useq (s : State) : s.tick.useq = s.useq := rfl

/-- The ports after `n` steps of the busy core. -/
def State.ticks : Nat → State → State
  | 0, s => s
  | n + 1, s => ticks n s.tick

theorem advance_eq_tick {s : State} (rst : s.pins.rst = false) (busy : s.cmdReady = false) :
    s.advance = s.tick := by
  simp [State.advance, State.tick, State.holds, rst, busy]

theorem sameRegisters_ticks (n : Nat) (s : State) : SameRegisters (s.ticks n) s := by
  induction n generalizing s with
  | zero => exact ⟨⟨rfl, rfl, rfl, rfl, rfl, rfl, rfl, rfl, rfl⟩, rfl, rfl, rfl⟩
  | succ n ih => exact ih s.tick

theorem State.NoReset.tick {s : State} (noReset : s.NoReset) : s.tick.NoReset := by
  intro p mem
  unfold State.tick at mem
  split at mem
  · exact noReset p mem
  · exact noReset p (List.mem_of_mem_tail mem)

theorem State.NoReset.rst {s : State} (noReset : s.NoReset) : s.pins.rst = false := by
  unfold State.NoReset at noReset
  unfold State.pins
  cases host : s.host with
  | nil => rfl
  | cons p rest => exact noReset p (by simp [host])

/-! ### One micro-operation -/

/-- The micro-operation that the sequencer word of `s` selects takes `s` to `s'`. -/
def MicroTo (s s' : State) : Prop := ∃ i, decodeUseq s.useq = .instr i ∧ exec i s = .next s'

theorem append_tick (s : State) (b : Byte) : s.tick.append b = (s.append b).map State.tick := by
  unfold State.append
  simp only [State.tick_buf, State.tick_fill]
  cases memWrite1 s.buf s.fill b <;> rfl

theorem padbBody_tick {s s' : State} (h : padbBody s = .next s') : padbBody s.tick = .next s'.tick := by
  unfold padbBody at h ⊢
  simp only [append_tick, State.tick_len, State.tick_padi]
  cases byte : padByte s.len s.padi.toNat with
  | none => simp [byte] at h
  | some b =>
    cases appended : s.append b with
    | none => simp [byte, appended] at h
    | some t =>
      simp only [byte, appended] at h
      cases h
      simp only [appended]
      rfl

/-- A micro-operation neither reads nor writes the ports. -/
theorem MicroTo.tick {s s' : State} (h : MicroTo s s') : MicroTo s.tick s'.tick := by
  obtain ⟨i, selected, own⟩ := h
  have selected' : decodeUseq s.tick.useq = .instr i := by rwa [State.tick_useq]
  refine ⟨i, selected', ?_⟩
  obtain rfl | rfl | ⟨t, rfl⟩ | rfl | ⟨t, rfl⟩ | rfl := decodeUseq_instr selected
  case inl =>
    rw [exec_padb, microStep_of_selected selected] at own
    exact (microStep_of_selected selected').trans (padbBody_tick own)
  all_goals
    simp only [exec_ldw, exec_xpd, exec_ldv, exec_rnd, exec_fld, microStep_of_selected selected,
      microStep_of_selected selected'] at own ⊢
    cases own
    rfl

theorem MicroTo.busy {s s' : State} (h : MicroTo s s') : s.cmdReady = false := by
  obtain ⟨i, selected, -⟩ := h
  refine Bool.eq_false_iff.mpr fun ready => ?_
  rw [decodeUseq_of_ready ready] at selected
  cases selected

theorem MicroTo.host_eq {s s' : State} (h : MicroTo s s') : s'.host = s.host := by
  obtain ⟨i, -, own⟩ := h
  cases effect_of_exec own with
  | data b _ appended => simp [append_frame appended]
  | padb b _ appended => simp [append_frame appended]
  | _ => rfl

theorem MicroTo.noReset {s s' : State} (h : MicroTo s s') (noReset : s.NoReset) : s'.NoReset := by
  unfold State.NoReset
  rwa [h.host_eq]

theorem MicroTo.step_eq {s s' : State} (h : MicroTo s s') (noReset : s.NoReset) : step s = .next s'.tick := by
  obtain ⟨i, selected, own⟩ := h.tick
  have performed : nextAction s = .perform i := (nextAction_of_busy noReset.rst h.busy).mpr selected
  simp only [step, performed, advance_eq_tick noReset.rst h.busy, own]

/-! ### Chains of micro-operations -/

/-- `Micros n s d`: `n` micro-operations in a row take `s` to `d`. -/
inductive Micros : Nat → State → State → Prop where
  | nil (s : State) : Micros 0 s s
  | cons {n : Nat} {s s' d : State} (first : MicroTo s s') (rest : Micros n s' d) : Micros (n + 1) s d

theorem MicroTo.micros {s d : State} (h : MicroTo s d) : Micros 1 s d := .cons h (.nil d)

theorem Micros.trans {m n : Nat} {a b c : State} (h : Micros m a b) (h' : Micros n b c) :
    Micros (m + n) a c := by
  induction h with
  | nil s => rwa [Nat.zero_add]
  | cons first _ ih => exact Nat.succ_add .. ▸ .cons first (ih h')

theorem Micros.snoc {n : Nat} {s d e : State} (h : Micros n s d) (last : MicroTo d e) : Micros (n + 1) s e :=
  h.trans last.micros

theorem Micros.tick {n : Nat} {s d : State} (h : Micros n s d) : Micros n s.tick d.tick := by
  induction h with
  | nil s => exact .nil s.tick
  | cons first _ ih => exact .cons first.tick ih

theorem run_succ_of_next {M : Host.Core} {n : Nat} {s s' : M.State} (h : M.step s = .next s') :
    M.run (n + 1) s = M.run n s' := by
  rw [Host.Core.run, h]

/-- The run of a chain, with the ports moved on once per step. -/
theorem Micros.run_eq {n : Nat} {s d : State} (h : Micros n s d) (noReset : s.NoReset) :
    core.run n s = .next (d.ticks n) := by
  induction n generalizing s d with
  | zero => cases h; rfl
  | succ n ih =>
    cases h with
    | cons first rest =>
      exact (run_succ_of_next (M := core) (first.step_eq noReset)).trans <|
        ih rest.tick (first.noReset noReset).tick

end Sys2Proof.Machine
end

section
/-!
PROOFS. The compression of one block, from LOAD to the fold (spec/44_compression.md R104, R109).
-/

namespace Sys2Proof.Machine

/-! ### The five micro-operations in their phases -/

theorem microTo_loadWords {s : State} (load : s.phase = .load) (t0 : s.t = 0) : MicroTo s s.loadWords :=
  ⟨.ldw, (selects_ldw s).mpr ⟨load, t0⟩, exec_ldw_of_load load t0⟩

theorem microTo_expandWord {s : State} (expand : s.phase = .expand) (range : 16 ≤ s.t.toNat) :
    MicroTo s (s.expandWord s.t) :=
  ⟨.xpd s.t, (selects_xpd s s.t).mpr ⟨expand, rfl, range⟩, exec_xpd_of_expand expand rfl range⟩

theorem microTo_loadWorking {s : State} (initv : s.phase = .initv) (t0 : s.t = 0) : MicroTo s s.loadWorking :=
  ⟨.ldv, (selects_ldv s).mpr ⟨initv, t0⟩, exec_ldv_of_initv initv t0⟩

theorem microTo_roundAt {s : State} (round : s.phase = .round) : MicroTo s (s.roundAt s.t) :=
  ⟨.rnd s.t, (selects_rnd s s.t).mpr ⟨round, rfl⟩, exec_rnd_of_round round rfl⟩

theorem microTo_foldBack {s : State} (fold : s.phase = .fold) (t0 : s.t = 0) : MicroTo s s.foldBack :=
  ⟨.fld, (selects_fld s).mpr ⟨fold, t0⟩, exec_fld_of_fold fold t0⟩

/-! ### The index `T` -/

/-- Where a rule clears `T`, the sum wraps to 0 by itself. -/
theorem nextIndex_eq (k : Nat) :
    (if BitVec.ofNat 6 k = 63 then 0 else BitVec.ofNat 6 k + 1) = BitVec.ofNat 6 (k + 1) := by
  rw [BitVec.ofNat_add]
  split
  next last => rw [last]; rfl
  next => rfl

theorem toNat_index {k : Nat} (inside : k < 64) : (BitVec.ofNat 6 k).toNat = k := Nat.mod_eq_of_lt inside

theorem index_eq_last_iff {k : Nat} (inside : k < 64) : BitVec.ofNat 6 k = 63 ↔ k = 63 := by
  rw [← BitVec.toNat_inj, toNat_index inside]
  rfl

/-! ### The 48 steps of EXPAND -/

/-- `s` after the first `n` steps of EXPAND, the last of which leaves for INITV. -/
def State.expanded (s : State) (n : Nat) : State :=
  { s with w := expandSteps s.w n, t := BitVec.ofNat 6 (16 + n), phase := if n = 48 then .initv else .expand }

theorem expandWord_expanded (s : State) {n : Nat} (more : n < 48) :
    (s.expanded n).expandWord (BitVec.ofNat 6 (16 + n)) = s.expanded (n + 1) := by
  have last : BitVec.ofNat 6 (16 + n) = 63 ↔ n + 1 = 48 := by
    rw [index_eq_last_iff (by omega)]
    omega
  rw [State.expandWord, nextIndex_eq]
  simp only [State.expanded, last, Nat.ne_of_lt more, if_false, expandSteps_succ, Nat.add_assoc]

theorem micros_expanded (s : State) {n : Nat} (le : n ≤ 48) : Micros n (s.expanded 0) (s.expanded n) := by
  induction n with
  | zero => exact .nil _
  | succ n ih =>
    have more : n < 48 := le
    refine (ih (Nat.le_of_lt more)).snoc ?_
    rw [← expandWord_expanded s more]
    exact microTo_expandWord (if_neg (Nat.ne_of_lt more)) (by rw [State.expanded, toNat_index] <;> omega)

/-! ### The 64 rounds -/

/-- The registers a..h after the first `n` rounds. -/
def roundSteps (w : Vector Word 64) (v : Vector Word 8) (n : Nat) : Vector Word 8 :=
  (List.range n).foldl (fun v j => roundAt w v (BitVec.ofNat 6 j)) v

theorem roundSteps_succ (w : Vector Word 64) (v : Vector Word 8) (n : Nat) :
    roundSteps w v (n + 1) = roundAt w (roundSteps w v n) (BitVec.ofNat 6 n) := by
  simp only [roundSteps, List.range_succ, List.foldl_append, List.foldl_cons, List.foldl_nil]

theorem rounds_eq_roundSteps (w : Vector Word 64) (v : Vector Word 8) : rounds w v = roundSteps w v 64 := rfl

/-- `s` after the first `n` rounds, the last of which leaves for FOLD. -/
def State.rounded (s : State) (n : Nat) : State :=
  { s with v := roundSteps s.w s.v n, t := BitVec.ofNat 6 n, phase := if n = 64 then .fold else .round }

theorem roundAt_rounded (s : State) {n : Nat} (more : n < 64) :
    (s.rounded n).roundAt (BitVec.ofNat 6 n) = s.rounded (n + 1) := by
  have last : BitVec.ofNat 6 n = 63 ↔ n + 1 = 64 := by
    rw [index_eq_last_iff more]
    omega
  rw [State.roundAt, nextIndex_eq]
  simp only [State.rounded, last, Nat.ne_of_lt more, if_false, roundSteps_succ]

theorem micros_rounded (s : State) {n : Nat} (le : n ≤ 64) : Micros n (s.rounded 0) (s.rounded n) := by
  induction n with
  | zero => exact .nil _
  | succ n ih =>
    have more : n < 64 := le
    refine (ih (Nat.le_of_lt more)).snoc ?_
    rw [← roundAt_rounded s more]
    exact microTo_roundAt (if_neg (Nat.ne_of_lt more))

/-! ### The block -/

/-- The registers R109 lists, from `s` in LOAD. -/
def State.blockCompressed (s : State) : State :=
  { s with
    h := compressBlock s.h s.buf
    v := rounds (expand (toWords s.buf)) s.h
    w := expand (toWords s.buf)
    fill := 0
    t := 0
    phase := phaseAfterFold s.fin s.padi s.len }

theorem foldBack_rounded_eq_blockCompressed (s : State) :
    ((s.loadWords.expanded 48).loadWorking.rounded 64).foldBack = s.blockCompressed := by
  simp only [State.blockCompressed, State.foldBack, State.rounded, State.loadWorking, State.expanded,
    State.loadWords, compressBlock, compress, expand_eq_expandSteps, rounds_eq_roundSteps]
  rfl

/-- R109: LDW, 48 XPD, LDV, 64 RND and FLD. -/
theorem micros_blockCompressed {s : State} (load : s.phase = .load) (t0 : s.t = 0) :
    Micros 115 s s.blockCompressed := by
  have ldw : Micros 1 s (s.loadWords.expanded 0) := (microTo_loadWords load t0).micros
  have xpd := micros_expanded s.loadWords (Nat.le_refl 48)
  have ldv : Micros 1 (s.loadWords.expanded 48) ((s.loadWords.expanded 48).loadWorking.rounded 0) :=
    (microTo_loadWorking rfl rfl).micros
  have rnd := micros_rounded (s.loadWords.expanded 48).loadWorking (Nat.le_refl 64)
  have fld := (microTo_foldBack (s := (s.loadWords.expanded 48).loadWorking.rounded 64) rfl rfl).micros
  rw [foldBack_rounded_eq_blockCompressed] at fld
  exact (((ldw.trans xpd).trans ldv).trans rnd).trans fld

/-- Settles O53: the run of the 115 micro-operations of a block, on any ports without reset. -/
theorem oneBlockTakes115StepsAndCompresses : Obligations.OneBlockTakes115StepsAndCompresses := by
  intro s load t0 noReset
  obtain ⟨⟨h, v, w, buf, fill, len, t, padi, fin⟩, phase, cause, fcmd⟩ :=
    sameRegisters_ticks 115 s.blockCompressed
  exact ⟨_, (micros_blockCompressed load t0).run_eq noReset, h, w, v, fill, t, buf, len, padi, fin, cause, fcmd,
    phase⟩

end Sys2Proof.Machine
end

section
/-!
PROOFS. The read-only memories IV and K as roots of primes (spec/44_compression.md R102, R103; log 7).
-/

namespace Sys2Proof.Machine

/-- Below 18² a number with a proper divisor has one below 18: the divisor or its cofactor. -/
theorem trialDivision_below_18 {p : Nat} (bound : p < 18 ^ 2) :
    (∀ d < 18, 2 ≤ d → d < p → p % d ≠ 0) ↔ ∀ d, 2 ≤ d → d < p → p % d ≠ 0 := by
  refine ⟨fun small d two proper divides => ?_, fun all d _ => all d⟩
  obtain ⟨q, rfl⟩ := Nat.dvd_of_mod_eq_zero divides
  obtain d_small | d_large := Nat.lt_or_ge d 18
  · exact small d d_small two proper divides
  · have q_two : 2 ≤ q := Nat.lt_of_mul_lt_mul_left (by omega : d * 1 < d * q)
    have q_small : q < 18 := Nat.lt_of_not_le fun q_large =>
      Nat.not_lt_of_le (Nat.mul_le_mul d_large q_large) bound
    have q_proper : 1 * q < d * q := Nat.mul_lt_mul_of_pos_right two (by omega)
    exact small q q_small q_two (by omega) (Nat.mul_mod_left d q)

/-- The primes up to 311 by trial division, in increasing order. -/
def romPrimes : List Nat :=
  (List.range 312).filter fun p => 2 ≤ p ∧ ∀ d : Nat, d < 18 → 2 ≤ d → d < p → p % d ≠ 0

theorem mem_romPrimes {p : Nat} :
    p ∈ romPrimes ↔ p ≤ 311 ∧ 2 ≤ p ∧ ∀ d, 2 ≤ d → d < p → p % d ≠ 0 := by
  rw [romPrimes, List.mem_filter, List.mem_range, Nat.lt_succ_iff, decide_eq_true_eq]
  exact and_congr_right fun bound => and_congr_right' (trialDivision_below_18 (p := p) (by omega))

theorem romPrimes_pairwise_lt : romPrimes.Pairwise (· < ·) :=
  List.pairwise_lt_range.filter _

/-- The primes of R102 and R103, 2 to 311, and that there are 64 of them. -/
theorem romPrimes_eq : romPrimes =
    [2, 3, 5, 7, 11, 13, 17, 19, 23, 29, 31, 37, 41, 43, 47, 53,
     59, 61, 67, 71, 73, 79, 83, 89, 97, 101, 103, 107, 109, 113, 127, 131,
     137, 139, 149, 151, 157, 163, 167, 173, 179, 181, 191, 193, 197, 199, 211, 223,
     227, 229, 233, 239, 241, 251, 257, 263, 269, 271, 277, 281, 283, 293, 307, 311] := by
  decide +kernel

theorem romPrimes_length : romPrimes.length = 64 := by rw [romPrimes_eq]; rfl

theorem romPrimes_getD_lt {i j : Fin 64} (lt : i < j) : romPrimes.getD i.val 0 < romPrimes.getD j.val 0 := by
  have length := romPrimes_length
  rw [List.getD_eq_getElem?_getD, List.getD_eq_getElem?_getD, List.getElem?_eq_getElem (by omega),
    List.getElem?_eq_getElem (by omega)]
  exact List.pairwise_iff_getElem.mp romPrimes_pairwise_lt _ _ _ _ lt

/-- A word is the fraction of a scaled root once some whole part puts the root between the two bounds. -/
theorem exists_root_of_wholePart {word : Word} {n a : Nat}
    (h : ∃ whole, whole < 7 ∧ (whole * 2 ^ 32 + word.toNat) ^ n ≤ a ∧ a < (whole * 2 ^ 32 + word.toNat + 1) ^ n) :
    ∃ x, x ^ n ≤ a ∧ a < (x + 1) ^ n ∧ word.toNat = x % 2 ^ 32 := by
  obtain ⟨whole, -, lower, upper⟩ := h
  have fits := word.isLt
  exact ⟨whole * 2 ^ 32 + word.toNat, lower, upper, by omega⟩

/-- No whole part reaches 7: the primes of IV are below 7², and those of K below 7³. -/
theorem romIV_squareRoots :
    ∀ i : Fin 8, ∃ whole, whole < 7 ∧
      (whole * 2 ^ 32 + romIV[i.val].toNat) ^ 2 ≤ romPrimes.getD i.val 0 * 2 ^ 64 ∧
      romPrimes.getD i.val 0 * 2 ^ 64 < (whole * 2 ^ 32 + romIV[i.val].toNat + 1) ^ 2 := by
  rw [romPrimes_eq]
  decide +kernel

theorem romK_cubeRoots :
    ∀ t : Fin 64, ∃ whole, whole < 7 ∧
      (whole * 2 ^ 32 + romK[t.val].toNat) ^ 3 ≤ romPrimes.getD t.val 0 * 2 ^ 96 ∧
      romPrimes.getD t.val 0 * 2 ^ 96 < (whole * 2 ^ 32 + romK[t.val].toNat + 1) ^ 3 := by
  rw [romPrimes_eq]
  decide +kernel

/-- Settles O47: the primes come from trial division, and each table word is the fraction of a scaled root. -/
theorem romWordsAreRootsOfPrimes : Obligations.RomWordsAreRootsOfPrimes :=
  ⟨romPrimes, romPrimes_length, fun _ => mem_romPrimes, fun _ _ => romPrimes_getD_lt,
    fun i => exists_root_of_wholePart (romIV_squareRoots i), fun t => exists_root_of_wholePart (romK_cubeRoots t)⟩

end Sys2Proof.Machine
end

section
/-!
PROOFS. What each command answers, phase by phase (spec/45_pipeline.md R113 to R118).
-/

namespace Sys2Proof.Machine

/-! ### The frame of a command step, for every command -/

theorem exec_of_cmdFormat {i : Instr} {x : CmdWord} (format : encode i = .cmd x) :
    ∃ body, ∀ s, exec i s = commandStep i x body s := by
  cases i with
  | padb | ldw | xpd t | ldv | rnd t | fld => cases format
  | nop => cases format; exact ⟨_, exec_nop⟩
  | start => cases format; exact ⟨_, exec_start⟩
  | data b => cases format; exact ⟨_, exec_data b⟩
  | finish => cases format; exact ⟨_, exec_finish⟩
  | rdhex k => cases format; exact ⟨_, exec_rdhex k⟩

/-- R114 speaks of the ready phases other than FAULT. -/
theorem cmdReady_of_ready {s : State} (ready : s.phase = .idle ∨ s.phase = .absorb ∨ s.phase = .done) :
    s.cmdReady = true :=
  (cmdReady_iff s).mpr (ready.imp_right (Or.imp_right Or.inl))

theorem not_fault_of_ready {s : State} (ready : s.phase = .idle ∨ s.phase = .absorb ∨ s.phase = .done) :
    s.phase ≠ .fault := fun fault => by simp [fault] at ready

section Frame
variable {i : Instr} {x : CmdWord} {s : State} (format : encode i = .cmd x)
include format

/-- A command applied in a busy phase is held (log 11). -/
theorem exec_command_of_busy (busy : s.cmdReady = false) : exec i s = .next s := by
  obtain ⟨body, frame⟩ := exec_of_cmdFormat format
  rw [frame, commandStep, if_pos busy]

/-- In FAULT every command is ignored. -/
theorem exec_command_of_fault (fault : s.phase = .fault) : exec i s = .next (s.respond 0x00) := by
  obtain ⟨body, frame⟩ := exec_of_cmdFormat format
  have ready : s.cmdReady = true := by simp [cmdReady_iff, fault]
  rw [frame, commandStep, if_neg (by simp [ready]), if_pos fault]

/-- Outside the phases of R114 a command raises WrongPhase. -/
theorem exec_command_of_illegal (ready : s.phase = .idle ∨ s.phase = .absorb ∨ s.phase = .done)
    (illegal : legalIn i s.phase = false) : exec i s = .next (raiseFault .wrongPhase x s) := by
  obtain ⟨body, frame⟩ := exec_of_cmdFormat format
  rw [frame, commandStep, if_neg (by simp [cmdReady_of_ready ready]), if_neg (not_fault_of_ready ready),
    if_neg (by simp [illegal])]

end Frame

theorem commandStep_of_legalIn {i : Instr} {x : CmdWord} {body : State → Result} {s : State}
    (legal : legalIn i s.phase = true) : commandStep i x body s = body s :=
  commandStep_of_legal legal (ready_of_legalIn legal) (not_fault_of_legalIn legal)

theorem legalIn_nop {p : Phase} : legalIn .nop p = true ↔ p = .idle ∨ p = .absorb ∨ p = .done := by
  simp [legalIn, or_assoc]

theorem legalIn_start {p : Phase} : legalIn .start p = true ↔ p = .idle ∨ p = .absorb ∨ p = .done := by
  simp [legalIn, or_assoc]

/-! ### NOP, START, FINISH -/

theorem exec_nop_of_ready {s : State} (ready : s.phase = .idle ∨ s.phase = .absorb ∨ s.phase = .done) :
    exec .nop s = .next (s.respond 0x00) := by
  rw [exec_nop, commandStep_of_legalIn (legalIn_nop.mpr ready)]

theorem exec_start_of_ready {s : State} (ready : s.phase = .idle ∨ s.phase = .absorb ∨ s.phase = .done) :
    exec .start s = .next (s.startMessage.respond 0x00) := by
  rw [exec_start, commandStep_of_legalIn (legalIn_start.mpr ready)]

theorem exec_finish_of_absorb {s : State} (absorb : s.phase = .absorb) :
    exec .finish s = .next (s.endMessage.respond 0x00) := by
  rw [exec_finish, commandStep_of_legalIn (legalIn_finish.mpr absorb)]

theorem exec_rdhex_of_done {s : State} (done : s.phase = .done) (k : BitVec 6) :
    exec (.rdhex k) s = .next (s.respond (s.hex k)) := by
  rw [exec_rdhex, commandStep_of_legalIn (legalIn_rdhex.mpr done)]

/-! ### DATA -/

theorem exec_data_of_absorb {s : State} (absorb : s.phase = .absorb) (b : Byte) :
    exec (.data b) s = dataBody b s := by
  rw [exec_data, commandStep_of_legalIn (legalIn_data.mpr absorb)]

theorem len_eq_maxLen_iff {len : BitVec 64} : len = maxLen ↔ len.toNat = 2 ^ 64 - 8 :=
  BitVec.toNat_inj.symm

theorem dataBody_of_maxLen {s : State} (max : s.len.toNat = 2 ^ 64 - 8) (b : Byte) :
    dataBody b s = .next (raiseFault .lengthOverflow (0x200 + b.setWidth 12) s) :=
  if_pos (len_eq_maxLen_iff.mpr max)

theorem dataBody_of_append {s s' : State} {b : Byte} (notMax : s.len.toNat ≠ 2 ^ 64 - 8)
    (appended : s.append b = some s') : dataBody b s = .next ({ s' with len := s'.len + 8 }.respond 0x00) := by
  rw [dataBody, if_neg (mt len_eq_maxLen_iff.mp notMax), appended]

/-- Where DATA goes from ABSORB, if it answers. -/
theorem phase_of_dataBody {s t : State} {b : Byte} (h : dataBody b s = .next t) :
    (s.len.toNat = 2 ^ 64 - 8 ∧ t.phase = .fault) ∨
    (s.len.toNat ≠ 2 ^ 64 - 8 ∧ s.fill.toNat < 64 ∧ t.phase = phaseAfterAppend s.fill s.phase) := by
  by_cases max : s.len.toNat = 2 ^ 64 - 8
  · rw [dataBody_of_maxLen max] at h
    cases h
    exact .inl ⟨max, rfl⟩
  · have ok : s.fill.toNat < 64 := Nat.lt_of_not_le fun full => by
      rw [dataBody_of_full b max full] at h
      cases h
    rw [dataBody_of_append max (append_of_lt ok)] at h
    cases h
    exact .inr ⟨max, ok, rfl⟩

/-! ### WrongPhase -/

theorem exec_data_of_notAbsorb {s : State} (elsewhere : s.phase = .idle ∨ s.phase = .done) (b : Byte) :
    exec (.data b) s = .next (raiseFault .wrongPhase (0x200 + b.setWidth 12) s) :=
  exec_command_of_illegal rfl (elsewhere.imp_right .inr) (by obtain p | p := elsewhere <;> rw [p] <;> rfl)

theorem exec_finish_of_notAbsorb {s : State} (elsewhere : s.phase = .idle ∨ s.phase = .done) :
    exec .finish s = .next (raiseFault .wrongPhase 0x300 s) :=
  exec_command_of_illegal rfl (elsewhere.imp_right .inr) (by obtain p | p := elsewhere <;> rw [p] <;> rfl)

theorem exec_rdhex_of_notDone {s : State} (elsewhere : s.phase = .idle ∨ s.phase = .absorb) (k : BitVec 6) :
    exec (.rdhex k) s = .next (raiseFault .wrongPhase (0x400 + k.setWidth 12) s) :=
  exec_command_of_illegal rfl (elsewhere.imp_right .inl) (by obtain p | p := elsewhere <;> rw [p] <;> rfl)

/-! ### The statements -/

/-- Settles O13: the rule of NOP is the response alone, which is also what FAULT answers to every command. -/
theorem nopChangesNoRegister : Obligations.NopChangesNoRegister := by
  refine ⟨rfl, fun s => ⟨?_, exec_command_of_busy rfl⟩⟩
  rintro (idle | absorb | done | fault)
  · exact exec_nop_of_ready (.inl idle)
  · exact exec_nop_of_ready (.inr (.inl absorb))
  · exact exec_nop_of_ready (.inr (.inr done))
  · exact exec_command_of_fault rfl fault

/-- Settles O14: a START enters a phase in which START is legal, and its own rule done twice is the rule. -/
theorem startBeginsAMessage : Obligations.StartBeginsAMessage := by
  refine ⟨rfl, fun s => ⟨exec_start_of_ready, exec_command_of_fault rfl, exec_command_of_busy rfl, ?twice⟩⟩
  intro s1 ready h
  rw [exec_start_of_ready ready] at h
  cases h
  exact exec_start_of_ready (.inr (.inl rfl))

/-- Settles O15: START reads nothing, and no byte of `BUF` is below the `FILL` it leaves. -/
theorem startForgetsThePast : Obligations.StartForgetsThePast := by
  intro a b readyA readyB cause fcmd host
  exact ⟨_, _, exec_start_of_ready readyA, exec_start_of_ready readyB, rfl, cause, fcmd, rfl, host, by simp⟩

/-- Settles O16, by what Append answers. -/
theorem dataAppendsOneByteOrFaults : Obligations.DataAppendsOneByteOrFaults := by
  refine fun s b => ⟨rfl, fun ok absorb notMax => ?_, fun absorb max => ?_,
    fun elsewhere => exec_data_of_notAbsorb elsewhere b, exec_command_of_fault rfl, exec_command_of_busy rfl⟩
  · rw [exec_data_of_absorb absorb, dataBody_of_append notMax (append_of_lt ok), phaseAfterAppend_eq, absorb]
    rfl
  · rw [exec_data_of_absorb absorb, dataBody_of_maxLen max]
    rfl

/-- Settles O17: in ABSORB the rule of FINISH is the whole effect. -/
theorem finishStartsThePadder : Obligations.FinishStartsThePadder :=
  ⟨rfl, fun _ =>
    ⟨exec_finish_of_absorb, exec_finish_of_notAbsorb, exec_command_of_fault rfl, exec_command_of_busy rfl⟩⟩

/-- The "ok" entries of R114: the command completes, raises no fault and leaves the fault registers. -/
theorem exec_of_ok {i : Instr} {s : State} (ready : s.phase = .idle ∨ s.phase = .absorb ∨ s.phase = .done)
    (ok : i = .nop ∨ i = .start ∨ (i = .finish ∧ s.phase = .absorb) ∨ (∃ k, i = .rdhex k ∧ s.phase = .done) ∨
      (∃ b, i = .data b ∧ s.phase = .absorb ∧ s.len.toNat ≠ 2 ^ 64 - 8 ∧ s.fill.toNat < 64)) :
    ∃ t, exec i s = .next t ∧ t.phase ≠ .fault ∧ t.cause = s.cause ∧ t.fcmd = s.fcmd := by
  have noFault := not_fault_of_ready ready
  obtain rfl | rfl | ⟨rfl, absorb⟩ | ⟨k, rfl, done⟩ | ⟨b, rfl, absorb, notMax, inRange⟩ := ok
  · exact ⟨_, exec_nop_of_ready ready, noFault, rfl, rfl⟩
  · exact ⟨_, exec_start_of_ready ready, by simp, rfl, rfl⟩
  · exact ⟨_, exec_finish_of_absorb absorb, by simp, rfl, rfl⟩
  · exact ⟨_, exec_rdhex_of_done done k, noFault, rfl, rfl⟩
  · refine ⟨_, (exec_data_of_absorb absorb b).trans (dataBody_of_append notMax (append_of_lt inRange)), ?_, rfl, rfl⟩
    obtain ⟨-, next⟩ | ⟨-, next⟩ := phaseAfterAppend_cases s.fill s.phase <;> simp [next, noFault]

/-- Settles O19, an entry of the table at a time. -/
theorem commandLegalityTable : Obligations.CommandLegalityTable := by
  refine fun s => ⟨fun b elsewhere => exec_data_of_notAbsorb elsewhere b, exec_finish_of_notAbsorb,
    fun k elsewhere => exec_rdhex_of_notDone elsewhere k, fun b absorb max => ?_, fun i => exec_of_ok,
    fun i x fault format => exec_command_of_fault format fault, fun x ready => ?_, fun x fault => ?_⟩
  · rw [exec_data_of_absorb absorb, dataBody_of_maxLen max]
    rfl
  · exact rejectCommand_of_ready (cmdReady_of_ready ready) (not_fault_of_ready ready) x
  · exact rejectCommand_of_fault fault x

end Sys2Proof.Machine
end

section
/-!
PROOFS. Runs in which the host waits: it presents a command, or nothing any more, while the core is busy
(spec/45_pipeline.md R113, R147).
-/

namespace Sys2Proof.Machine

theorem run_add_of_next {M : Host.Core} {m n : Nat} {s s' : M.State} (h : M.run m s = .next s') :
    M.run (m + n) s = M.run n s' := by
  induction m generalizing s with
  | zero =>
    cases h
    rw [Nat.zero_add]
  | succ m ih =>
    rw [Host.Core.run] at h
    rw [Nat.succ_add, Host.Core.run]
    cases first : M.step s with
    | next t => rw [first] at h; exact ih h
    | fault r => rw [first] at h; cases h
    | refused r => rw [first] at h; cases h

theorem step_of_performed {s : State} {i : Instr} (performed : nextAction s = .perform i) :
    step s = exec i s.advance := by
  simp only [step, performed]

/-- A presented command runs in a ready phase, and the host moves on. -/
theorem step_of_presented {s : State} {c : CmdWord} {i : Instr} {rest : List Pins}
    (host : s.host = present c :: rest) (ready : s.cmdReady = true) (command : decodeCmd c = .instr i) :
    step s = exec i { s with host := rest, rsp := none } := by
  have pins : s.pins = present c := by rw [State.pins, host]; rfl
  have moved : s.advance = { s with host := rest, rsp := none } := by
    simp [State.advance, State.holds, ready, host]
  have performed : nextAction s = .perform i := nextAction_perform.mpr
    ⟨by rw [pins]; rfl, .inl ⟨ready, by rw [pins]; rfl, by rw [pins]; exact command⟩⟩
  rw [step_of_performed performed, moved]

/-- What the host drives next, if anything, is a command and no reset. -/
def Waiting (host : List Pins) : Prop := ∀ p ∈ host.head?, p.rst = false ∧ p.cmdValid = true

theorem waiting_present (c : CmdWord) (rest : List Pins) : Waiting (present c :: rest) := by
  simp [Waiting, present]

theorem Waiting.rst {s : State} (waiting : Waiting s.host) : s.pins.rst = false := by
  unfold State.pins
  cases host : s.host with
  | nil => rfl
  | cons p rest => exact (waiting p (by simp [host])).1

/-- A waiting host keeps what it presents. -/
theorem Waiting.tick_eq {s : State} (waiting : Waiting s.host) : s.tick = { s with rsp := none } := by
  unfold State.tick State.pins
  cases host : s.host with
  | nil => rfl
  | cons p rest =>
    have valid : p.cmdValid = true := (waiting p (by simp [host])).2
    simp [valid]

theorem MicroTo.step_eq_of_rst {s s' : State} (h : MicroTo s s') (rst : s.pins.rst = false) :
    step s = .next s'.tick := by
  obtain ⟨i, selected, own⟩ := h.tick
  have performed : nextAction s = .perform i := (nextAction_of_busy rst h.busy).mpr selected
  rw [step_of_performed performed, advance_eq_tick rst h.busy, own]

theorem Micros.host_eq {n : Nat} {s d : State} (h : Micros n s d) : d.host = s.host := by
  induction h with
  | nil => rfl
  | cons first _ ih => rw [ih, first.host_eq]

/-- While the host waits, the run of a chain is the chain, but for the response. -/
theorem Micros.run_of_waiting {n : Nat} {s d : State} (h : Micros n s d) (waiting : Waiting s.host) :
    ∃ r, core.run n s = .next { d with rsp := r } := by
  induction n generalizing s d with
  | zero => cases h; exact ⟨s.rsp, rfl⟩
  | succ n ih =>
    cases h with
    | @cons _ _ s' _ first rest =>
      have waiting' : Waiting s'.host := by rwa [first.host_eq]
      have waiting_d : Waiting d.host := by rwa [rest.host_eq]
      have held := rest.tick
      rw [waiting'.tick_eq, waiting_d.tick_eq] at held
      have stepped : core.step s = .next { s' with rsp := none } := by
        rw [← waiting'.tick_eq]
        exact first.step_eq_of_rst waiting.rst
      obtain ⟨r, run⟩ := ih held waiting'
      exact ⟨r, (run_succ_of_next stepped).trans run⟩

end Sys2Proof.Machine
end

section
/-!
PROOFS. A stream of bytes through the block buffer: Append fills `BUF`, and the 64th byte of a block has it compressed
into `H` (spec/41_block.md R85, R86; spec/44_compression.md R104, R109; spec/45_pipeline.md R110).
-/

namespace Sys2Proof.Machine

/-- The core holds the first `k` bytes of the stream `p`: the whole blocks in `H`, the bytes after them in `BUF`. -/
def State.Fed (s : State) (p : List Byte) (k : Nat) : Prop :=
  s.h = hashState p (k / 64) ∧ s.fill.toNat = k % 64 ∧ s.t = 0 ∧
    ∀ j : Fin 64, j.val < k % 64 → s.buf[j] = (blockAt p (k / 64))[j]

/-- `t` has what Append of `b` leaves of `s` in the registers it is about, and in `H` and `T`. -/
def Appended (b : Byte) (s t : State) : Prop :=
  ∃ u, s.append b = some u ∧ t.h = u.h ∧ t.t = u.t ∧ t.buf = u.buf ∧ t.fill = u.fill ∧ t.phase = u.phase

/-- Byte `k` of a stream is in block `k div 64` at position `k mod 64` (R85). -/
theorem blockAt_getElem_mod {p : List Byte} {k : Nat} {b : Byte} (byte : p[k]? = some b) :
    (blockAt p (k / 64))[k % 64]'(Nat.mod_lt k (by decide)) = b := by
  obtain ⟨inside, rfl⟩ := List.getElem?_eq_some_iff.mp byte
  have index := Nat.div_add_mod k 64
  rw [blockAt_getElem _ (by omega)]
  simp only [index]

/-- The next byte of the stream either fills the block or leaves it to be filled. -/
theorem State.Fed.append {s t : State} {p : List Byte} {k : Nat} {b : Byte} (fed : s.Fed p k)
    (byte : p[k]? = some b) (appended : Appended b s t) :
    (k % 64 ≠ 63 ∧ t.phase = s.phase ∧ t.Fed p (k + 1)) ∨
    (k % 64 = 63 ∧ t.phase = .load ∧ t.t = 0 ∧ t.h = hashState p (k / 64) ∧ t.buf = blockAt p (k / 64)) := by
  obtain ⟨h, fill, t0, buf⟩ := fed
  obtain ⟨u, answer, hu, tu, bufu, fillu, phaseu⟩ := appended
  obtain ⟨ok, rfl⟩ := append_eq_some.mp answer
  have filled : ∀ j : Fin 64, j.val < k % 64 + 1 → t.buf[j] = (blockAt p (k / 64))[j] := by
    have same := set_agree b (Nat.mod_lt k (by decide)) buf
    rw [← blockAt_getElem_mod byte, Vector.set_getElem_self, blockAt_getElem_mod byte] at same
    simpa only [bufu, fill] using same
  have fill' : t.fill.toNat = k % 64 + 1 := by rw [fillu]; bv_omega
  obtain ⟨last, next⟩ | ⟨notLast, next⟩ := phaseAfterAppend_cases s.fill s.phase
  · exact .inr ⟨by omega, phaseu.trans next, tu.trans t0, hu.trans h,
      Vector.ext fun j inside => filled ⟨j, inside⟩ (by simp only; omega)⟩
  · have mod : (k + 1) % 64 = k % 64 + 1 := by omega
    have div : (k + 1) / 64 = k / 64 := by omega
    refine .inl ⟨by omega, phaseu.trans next, ?_⟩
    rw [State.Fed, mod, div]
    exact ⟨hu.trans h, fill', tu.trans t0, filled⟩

theorem fed_blockCompressed {s : State} {p : List Byte} {k : Nat} (last : k % 64 = 63)
    (h : s.h = hashState p (k / 64)) (buf : s.buf = blockAt p (k / 64)) : s.blockCompressed.Fed p (k + 1) := by
  have mod : (k + 1) % 64 = 0 := by omega
  have div : (k + 1) / 64 = k / 64 + 1 := by omega
  rw [State.Fed, mod, div]
  refine ⟨?_, rfl, rfl, fun j none => absurd none (Nat.not_lt_zero _)⟩
  rw [hashState, ← h, ← buf]
  rfl

/-- The micro-operations that byte `k` of a stream costs beside its Append: those of its block if it is the last. -/
def blockSteps (k : Nat) : Nat := if k % 64 = 63 then 115 else 0

theorem blockSteps_add (k : Nat) : 115 * (k / 64) + blockSteps k = 115 * ((k + 1) / 64) := by
  unfold blockSteps
  split <;> omega

/-- After Append of the next byte the core soon holds it, and is in the phase that R108 would choose. -/
theorem State.Fed.feed {s t : State} {p : List Byte} {k : Nat} {b : Byte} (fed : s.Fed p k)
    (byte : p[k]? = some b) (appended : Appended b s t)
    (filling : k % 64 ≠ 63 → s.phase = phaseAfterFold t.fin t.padi t.len) :
    ∃ d, Micros (blockSteps k) t d ∧ d.Fed p (k + 1) ∧ d.phase = phaseAfterFold t.fin t.padi t.len ∧
      d.fin = t.fin ∧ d.padi = t.padi ∧ d.len = t.len := by
  obtain ⟨notLast, phase, fed'⟩ | ⟨last, load, t0, h, buf⟩ := fed.append byte appended
  · rw [blockSteps, if_neg notLast]
    exact ⟨t, .nil t, fed', phase.trans (filling notLast), rfl, rfl, rfl⟩
  · rw [blockSteps, if_pos last]
    exact ⟨t.blockCompressed, micros_blockCompressed load t0, fed_blockCompressed last h buf, rfl, rfl, rfl, rfl⟩

end Sys2Proof.Machine
end

section
/-!
PROOFS. The run of a whole message: START, the message bytes, FINISH, the pad bytes, and the digest read in DONE
(spec/45_pipeline.md R110, R116 to R121; spec/42_padding.md R96, R97; spec/46_digest.md R127, R128).
-/

namespace Sys2Proof.Machine

/-! ### The message bytes -/

/-- The core has absorbed the first `k` bytes of the message `m`. -/
def State.Absorbing (s : State) (m : List Byte) (k : Nat) : Prop :=
  s.Fed (pad m) k ∧ s.phase = .absorb ∧ s.fin = false ∧ s.len.toNat = 8 * k

theorem absorbing_startMessage (s : State) (m : List Byte) : s.startMessage.Absorbing m 0 :=
  ⟨⟨rfl, rfl, rfl, fun _ none => absurd none (Nat.not_lt_zero _)⟩, rfl, rfl, rfl⟩

/-- What the host presents from byte `k` of `m` on: the other bytes, FINISH, and then `rest`. -/
def inputsFrom (m : List Byte) (k : Nat) (rest : List Pins) : List Pins :=
  (m.drop k).map (fun b => present (0x200 + b.setWidth 12)) ++ present 0x300 :: rest

theorem messageInputs_append (m : List Byte) (rest : List Pins) :
    messageInputs m ++ rest = present 0x100 :: inputsFrom m 0 rest :=
  List.append_assoc (present 0x100 :: m.map _) [present 0x300] rest

theorem inputsFrom_of_lt {m : List Byte} {k : Nat} (more : k < m.length) (rest : List Pins) :
    inputsFrom m k rest = present (0x200 + m[k].setWidth 12) :: inputsFrom m (k + 1) rest := by
  rw [inputsFrom, List.drop_eq_getElem_cons more]
  rfl

theorem inputsFrom_length (m : List Byte) (rest : List Pins) :
    inputsFrom m m.length rest = present 0x300 :: rest := by
  simp [inputsFrom]

/-- After the message bytes the host presents FINISH, so it waits before each of them and before FINISH. -/
theorem waiting_inputsFrom (m : List Byte) (k : Nat) (rest : List Pins) : Waiting (inputsFrom m k rest) := by
  obtain more | le := Nat.lt_or_ge k m.length
  · rw [inputsFrom_of_lt more]
    exact waiting_present _ _
  · rw [inputsFrom, List.drop_of_length_le le]
    exact waiting_present _ _

theorem phaseAfterFold_of_fin {fin : Bool} (finished : fin = true) (padi : BitVec 7) (len : BitVec 64) :
    phaseAfterFold fin padi len = if padi.toNat < padN len then .pad else .done := by
  rw [finished]
  rfl

theorem padbBody_of_append {s u : State} {b : Byte} (byte : padByte s.len s.padi.toNat = some b)
    (appended : s.append b = some u) : padbBody s = .next { u with padi := u.padi + 1 } := by
  simp [padbBody, byte, appended]

theorem microTo_padb {s s' : State} (pad : s.phase = .pad) (t0 : s.t = 0) (own : padbBody s = .next s') :
    MicroTo s s' :=
  ⟨.padb, (selects_padb s).mpr ⟨pad, t0⟩, (exec_padb_of_pad pad t0).trans own⟩

/-- The core has appended the first `j` pad bytes to the message `m`, or all of them and is done. -/
def State.Padding (s : State) (m : List Byte) (j : Nat) : Prop :=
  s.Fed (pad m) (m.length + j) ∧ s.phase = (if j < padN (bitLength m) then .pad else .done) ∧
    s.fin = true ∧ s.len = bitLength m ∧ s.padi.toNat = j

section Message
variable {m : List Byte} (ok : 8 * m.length < 2 ^ 64)
include ok

/-- Byte `k` of the message is byte `k` of the padded message. -/
theorem pad_getElem?_of_lt {k : Nat} (more : k < m.length) : (pad m)[k]? = some m[k] := by
  rw [pad_eq_append_padBytes ok, List.getElem?_append_left more, List.getElem?_eq_getElem more]

/-- DATA with the next byte, and the compression that follows if it is the last of a block. -/
theorem exec_data_absorbing {s : State} {k : Nat} (absorbing : s.Absorbing m k) (more : k < m.length) :
    ∃ t d, exec (.data m[k]) s = .next t ∧ t.host = s.host ∧ Micros (blockSteps k) t d ∧ d.Absorbing m (k + 1) := by
  obtain ⟨fed, absorb, fin, len⟩ := absorbing
  have inRange : s.fill.toNat < 64 := by
    obtain ⟨-, fill, -⟩ := fed
    omega
  have notMax : s.len.toNat ≠ 2 ^ 64 - 8 := by omega
  obtain ⟨u, appended⟩ : ∃ u, s.append m[k] = some u := ⟨_, append_of_lt inRange⟩
  obtain ⟨-, -, -, lenu, -, -, finu, -, -, -, hostu, -⟩ := append_frame appended
  have absorbs (padi : BitVec 7) (len : BitVec 64) : phaseAfterFold u.fin padi len = .absorb := by
    rw [finu, fin]
    rfl
  obtain ⟨d, chain, fed', phase, fin', -, len'⟩ :=
    fed.feed (t := { u with len := u.len + 8 }.respond 0x00) (pad_getElem?_of_lt ok more)
      ⟨u, appended, rfl, rfl, rfl, rfl, rfl⟩ (fun _ => absorb.trans (absorbs _ _).symm)
  refine ⟨_, d, (exec_data_of_absorb absorb _).trans (dataBody_of_append notMax appended), hostu, chain,
    fed', phase.trans (absorbs _ _), fin'.trans (finu.trans fin), ?_⟩
  rw [len', State.respond_len, lenu, BitVec.toNat_add, len]
  exact Nat.mod_eq_of_lt (by omega : 8 * k + 8 < 2 ^ 64)

/-- START and the first `k` message bytes, with the compressions they start. -/
theorem run_absorbing {s : State} {rest : List Pins} (ready : s.phase = .idle ∨ s.phase = .absorb ∨ s.phase = .done)
    (host : s.host = messageInputs m ++ rest) {k : Nat} (le : k ≤ m.length) :
    ∃ s', core.run (1 + k + 115 * (k / 64)) s = .next s' ∧ s'.Absorbing m k ∧ s'.host = inputsFrom m k rest := by
  induction k with
  | zero =>
    rw [messageInputs_append] at host
    have stepped : core.step s = _ := (step_of_presented host (cmdReady_of_ready ready) rfl).trans
      (exec_start_of_ready ready)
    exact ⟨_, run_succ_of_next stepped, absorbing_startMessage _ m, rfl⟩
  | succ k ih =>
    obtain ⟨s₁, run, absorbing, host₁⟩ := ih (Nat.le_of_lt le)
    rw [inputsFrom_of_lt le] at host₁
    obtain ⟨t, d, data, hostt, chain, absorbing'⟩ :=
      exec_data_absorbing ok (s := { s₁ with host := inputsFrom m (k + 1) rest, rsp := none }) absorbing le
    have ⟨_, absorb, _⟩ := absorbing
    have stepped : core.step s₁ = .next t :=
      (step_of_presented host₁ (cmdReady_of_ready (.inr (.inl absorb)))
        (decodeCmd_of_encode (i := .data m[k]) rfl)).trans data
    obtain ⟨r, compressed⟩ := chain.run_of_waiting (hostt ▸ waiting_inputsFrom m (k + 1) rest)
    refine ⟨{ d with rsp := r }, ?_, absorbing', chain.host_eq.trans hostt⟩
    have steps : 1 + (k + 1) + 115 * ((k + 1) / 64) = 1 + k + 115 * (k / 64) + (blockSteps k + 1) := by
      rw [← blockSteps_add]
      omega
    rw [steps, run_add_of_next run, run_succ_of_next stepped, compressed]

/-! ### The pad bytes -/

/-- FINISH after the last message byte. -/
theorem padding_endMessage {s : State} (absorbing : s.Absorbing m m.length) : s.endMessage.Padding m 0 := by
  obtain ⟨fed, -, -, len⟩ := absorbing
  exact ⟨fed, (if_pos (Nat.succ_pos _)).symm, rfl, BitVec.eq_of_toNat_eq (len.trans (toNat_bitLength ok).symm), rfl⟩

/-- PADB with the next pad byte, and the compression that follows if it is the last of a block. -/
theorem micros_padding {s : State} {j : Nat} (padding : s.Padding m j) (more : j < padN (bitLength m)) :
    ∃ d, Micros (blockSteps (m.length + j) + 1) s d ∧ d.Padding m (j + 1) := by
  obtain ⟨fed, pad, fin, len, padi⟩ := padding
  rw [if_pos more] at pad
  have ⟨_, fill, t0, _⟩ := fed
  obtain ⟨b, byte⟩ := Option.isSome_iff_exists.mp ((padByte_isSome (bitLength m) j).mpr more)
  obtain ⟨u, appended⟩ : ∃ u, s.append b = some u := ⟨_, append_of_lt (by omega)⟩
  obtain ⟨-, -, -, lenu, -, padiu, finu, -⟩ := append_frame appended
  have padi' : (u.padi + 1).toNat = j + 1 := by
    have bound := padN_le (bitLength m)
    rw [padiu, BitVec.toNat_add, padi]
    exact Nat.mod_eq_of_lt (by omega : j + 1 < 2 ^ 7)
  have next : phaseAfterFold u.fin (u.padi + 1) u.len = if j + 1 < padN (bitLength m) then .pad else .done := by
    rw [phaseAfterFold_of_fin (finu.trans fin), padi', lenu, len]
  have whole := padN_fills (len := bitLength m) (by rw [toNat_bitLength ok]; omega)
  rw [toNat_bitLength ok] at whole
  obtain ⟨d, chain, fed', phase, fin', padi'', len'⟩ :=
    fed.feed (t := { u with padi := u.padi + 1 }) ((pad_getElem? ok j).trans byte)
      ⟨u, appended, rfl, rfl, rfl, rfl, rfl⟩
      (fun notLast => by rw [pad, next, if_pos (by omega)])
  have first : MicroTo s { u with padi := u.padi + 1 } :=
    microTo_padb pad t0 (padbBody_of_append (by rw [len, padi]; exact byte) appended)
  exact ⟨d, .cons first chain, fed', phase.trans next, fin'.trans (finu.trans fin), len'.trans (lenu.trans len),
    (congrArg BitVec.toNat padi'').trans padi'⟩

/-- START, the message bytes, FINISH and the first `j` pad bytes, with the compressions they start. -/
theorem run_padding {s : State} {rest : List Pins} (ready : s.phase = .idle ∨ s.phase = .absorb ∨ s.phase = .done)
    (host : s.host = messageInputs m ++ rest) (waiting : Waiting rest) {j : Nat} (le : j ≤ padN (bitLength m)) :
    ∃ s', core.run (2 + m.length + j + 115 * ((m.length + j) / 64)) s = .next s' ∧ s'.Padding m j ∧
      s'.host = rest := by
  induction j with
  | zero =>
    obtain ⟨s₁, run, absorbing, host₁⟩ := run_absorbing ok ready host (Nat.le_refl _)
    rw [inputsFrom_length] at host₁
    have ⟨_, absorb, _⟩ := absorbing
    have stepped : core.step s₁ = _ :=
      (step_of_presented host₁ (cmdReady_of_ready (.inr (.inl absorb))) rfl).trans (exec_finish_of_absorb absorb)
    have steps : 2 + m.length + 0 + 115 * ((m.length + 0) / 64) = 1 + m.length + 115 * (m.length / 64) + 1 := by omega
    rw [steps, run_add_of_next run, run_succ_of_next stepped]
    exact ⟨_, rfl, padding_endMessage ok (s := { s₁ with host := rest, rsp := none }) absorbing, rfl⟩
  | succ j ih =>
    obtain ⟨s₁, run, padding, host₁⟩ := ih (Nat.le_of_lt le)
    obtain ⟨d, chain, padding'⟩ := micros_padding ok padding le
    obtain ⟨r, padded⟩ := chain.run_of_waiting (host₁.symm ▸ waiting)
    have steps : 2 + m.length + (j + 1) + 115 * ((m.length + (j + 1)) / 64) =
        2 + m.length + j + 115 * ((m.length + j) / 64) + (blockSteps (m.length + j) + 1) := by
      rw [← Nat.add_assoc m.length, ← blockSteps_add]
      omega
    rw [steps, run_add_of_next run, padded]
    exact ⟨_, rfl, padding', chain.host_eq.trans host₁⟩

/-- The run of a whole message, whatever the host presents after it. -/
theorem run_message {s : State} {rest : List Pins} (ready : s.phase = .idle ∨ s.phase = .absorb ∨ s.phase = .done)
    (host : s.host = messageInputs m ++ rest) (waiting : Waiting rest) :
    ∃ s', core.run (2 + m.length + padN (bitLength m) + 115 * blockCount m) s = .next s' ∧
      s'.phase = .done ∧ s'.h = finalState m ∧ s'.host = rest := by
  obtain ⟨s', run, ⟨⟨h, -⟩, phase, -⟩, host'⟩ := run_padding ok ready host waiting (Nat.le_refl _)
  rw [← pad_length ok] at run h
  exact ⟨s', run, phase.trans (if_neg (Nat.lt_irrefl _)), h, host'⟩

end Message

/-- Settles O54: the run of the message, in the steps counted byte by byte and block by block. -/
theorem coreComputesTheHashOfEveryMessage : Obligations.CoreComputesTheHashOfEveryMessage :=
  fun _ _ _ ready ok host commands => run_message ok ready host fun p first => commands p (List.mem_of_mem_head? first)

/-! ### Reading the digest -/

theorem step_rdhex {s : State} {k : Nat} {rest : List Pins} (inside : k < 64) (done : s.phase = .done)
    (host : s.host = present (0x400 + BitVec.ofNat 12 k) :: rest) :
    step s = .next ({ s with host := rest, rsp := none }.respond (hexChar s.h (BitVec.ofNat 6 k))) := by
  have word : BitVec.ofNat 12 k = (BitVec.ofNat 6 k).setWidth 12 :=
    BitVec.eq_of_toNat_eq (by simp; omega)
  rw [word] at host
  exact (step_of_presented host (cmdReady_of_ready (.inr (.inr done)))
    (decodeCmd_of_encode (i := .rdhex (BitVec.ofNat 6 k)) rfl)).trans
    (exec_rdhex_of_done (s := { s with host := rest, rsp := none }) done _)

theorem readDigestInputs_drop {k : Nat} (inside : k < 64) :
    readDigestInputs.drop k = present (0x400 + BitVec.ofNat 12 k) :: readDigestInputs.drop (k + 1) := by
  rw [List.drop_eq_getElem_cons (by simpa [readDigestInputs] using inside)]
  simp [readDigestInputs]

/-- RDHEX changes no register, so the digest can be read to the end. -/
theorem run_readDigest {s : State} {rest : List Pins} (done : s.phase = .done)
    (host : s.host = readDigestInputs ++ rest) {k : Nat} (le : k ≤ 64) :
    ∃ t, core.run k s = .next t ∧ SameRegisters t s ∧ t.host = readDigestInputs.drop k ++ rest := by
  induction k with
  | zero => exact ⟨s, rfl, by simp [SameRegisters, SameDatapath], host⟩
  | succ k ih =>
    obtain ⟨t, run, same, host'⟩ := ih (Nat.le_of_lt le)
    have ⟨_, phase, _⟩ := same
    rw [readDigestInputs_drop le] at host'
    have stepped : core.step t = _ := step_rdhex le (phase.trans done) host'
    exact ⟨_, (run_add_of_next run).trans (run_succ_of_next stepped), same, rfl⟩

theorem render_getElem? (h : Vector Word 8) {k : Nat} (inside : k < 64) :
    (render h)[k]? = some (hexChar h (BitVec.ofNat 6 k)) := by
  simp [render, inside]

/-- In DONE response `k` to RDHEX 0 to RDHEX 63 is character `k` of the digest (R127, R128). -/
theorem readDigest_responses {s : State} {rest : List Pins} (done : s.phase = .done)
    (host : s.host = readDigestInputs ++ rest) {k : Nat} (inside : k < 64) :
    ∃ t, core.run (k + 1) s = .next t ∧ t.rsp = (render s.h)[k]? ∧ t.rsp ≠ none ∧ SameRegisters t s := by
  obtain ⟨t, run, same, host'⟩ := run_readDigest done host (Nat.le_of_lt inside)
  have ⟨⟨h, _⟩, phase, _⟩ := same
  rw [readDigestInputs_drop inside] at host'
  have stepped : core.step t = _ := step_rdhex inside (phase.trans done) host'
  rw [render_getElem? s.h inside, ← h]
  exact ⟨_, (run_add_of_next run).trans (run_succ_of_next stepped), rfl, Option.some_ne_none _, same⟩

/-- Settles O56: the run of the message ends with the host presenting RDHEX 0, and `Hash(m)` renders `S_N`. -/
theorem hostReadsTheDigestOfItsMessage : Obligations.HostReadsTheDigestOfItsMessage := by
  intro s m rest ready ok host
  rw [List.append_assoc] at host
  have waiting : Waiting (readDigestInputs ++ rest) := by
    rw [← List.drop_zero (l := readDigestInputs), readDigestInputs_drop (by decide)]
    exact waiting_present _ _
  obtain ⟨s', run, done, h, host'⟩ := run_message ok ready host waiting
  refine ⟨_, s', run, done, h, fun k inside => ?_⟩
  obtain ⟨t, read, rsp, answered, -⟩ := readDigest_responses done host' inside
  exact ⟨t, read, rsp.trans (by rw [h, messageDigest]), answered⟩

end Sys2Proof.Machine
end

section
/-!
PROOFS. The step as a function of the port and of the sequencer word: which instruction it runs, what a held command
does to it, and where it leads (spec/45_pipeline.md R113, R119; spec/70_reset_and_hazards.md R147).
-/

namespace Sys2Proof.Machine

/-- Settles O8: the decoded instruction is the enabled action. -/
theorem stepRunsTheDecodedInstruction : Obligations.StepRunsTheDecodedInstruction := by
  intro s i rst decoded
  have performed : nextAction s = .perform i := nextAction_perform.mpr ⟨rst, decoded⟩
  exact ⟨step_of_performed performed, sameRegisters_advance s, rfl, by simp [State.holds, rst]⟩

/-! ### One micro-operation, by the phase it runs in -/

theorem padbBody_next {s s' : State} (h : padbBody s = .next s') :
    ∃ (b : Byte) (ok : s.fill.toNat < 64), padByte s.len s.padi.toNat = some b ∧
      s' = { s with
        buf := s.buf.set s.fill.toNat b ok
        fill := s.fill + 1
        padi := s.padi + 1
        phase := phaseAfterAppend s.fill s.phase } := by
  have inRange : s.padi.toNat < padN s.len := Nat.lt_of_not_le fun beyond => by
    rw [padbBody_of_padi_ge beyond] at h
    cases h
  have ok : s.fill.toNat < 64 := Nat.lt_of_not_le fun full => by
    rw [padbBody_of_full inRange full] at h
    cases h
  obtain ⟨b, byte⟩ := Option.isSome_iff_exists.mp ((padByte_isSome _ _).mpr inRange)
  rw [padbBody_of_padByte byte ok] at h
  cases h
  exact ⟨b, ok, byte, rfl⟩

/-- Everything a micro-operation can be (R63). -/
theorem MicroTo.cases {s s' : State} (h : MicroTo s s') :
    (s.phase = .pad ∧ s.t = 0 ∧ padbBody s = .next s') ∨
    (s.phase = .load ∧ s.t = 0 ∧ s' = s.loadWords) ∨
    (s.phase = .expand ∧ 16 ≤ s.t.toNat ∧ s' = s.expandWord s.t) ∨
    (s.phase = .initv ∧ s.t = 0 ∧ s' = s.loadWorking) ∨
    (s.phase = .round ∧ s' = s.roundAt s.t) ∨
    (s.phase = .fold ∧ s.t = 0 ∧ s' = s.foldBack) := by
  obtain ⟨i, selected, own⟩ := h
  obtain rfl | rfl | ⟨t, rfl⟩ | rfl | ⟨t, rfl⟩ | rfl := decodeUseq_instr selected
  · obtain ⟨pad, t0⟩ := (selects_padb s).mp selected
    rw [exec_padb_of_pad pad t0] at own
    simp [pad, t0, own]
  · obtain ⟨load, t0⟩ := (selects_ldw s).mp selected
    cases (exec_ldw_of_load load t0).symm.trans own
    simp [load, t0]
  · obtain ⟨expand, rfl, range⟩ := (selects_xpd s t).mp selected
    cases (exec_xpd_of_expand expand rfl range).symm.trans own
    simp [expand, range]
  · obtain ⟨initv, t0⟩ := (selects_ldv s).mp selected
    cases (exec_ldv_of_initv initv t0).symm.trans own
    simp [initv, t0]
  · obtain ⟨round, rfl⟩ := (selects_rnd s t).mp selected
    cases (exec_rnd_of_round round rfl).symm.trans own
    simp [round]
  · obtain ⟨fold, t0⟩ := (selects_fld s).mp selected
    cases (exec_fld_of_fold fold t0).symm.trans own
    simp [fold, t0]

/-- The step of a busy core is the selected micro-operation (R113). -/
theorem microTo_of_step {s s' : State} (rst : s.pins.rst = false) (busy : s.cmdReady = false)
    (h : step s = .next s') : MicroTo s.advance s' := by
  obtain ⟨-, -, -, -, sequencer⟩ := exactlyOneAgentMoves s
  obtain ⟨i, selected, e⟩ | ⟨-, e⟩ := sequencer rst busy <;> rw [e] at h
  · exact ⟨i, selected, h⟩
  · cases h

/-! ### Held commands -/

/-- `s` with other ports. -/
def State.onPorts (s : State) (host : List Pins) (rsp : Option Byte) : State := { s with host := host, rsp := rsp }

theorem sameRegisters_onPorts (s : State) (host : List Pins) (rsp : Option Byte) :
    SameRegisters s (s.onPorts host rsp) :=
  ⟨⟨rfl, rfl, rfl, rfl, rfl, rfl, rfl, rfl, rfl⟩, rfl, rfl, rfl⟩

/-- A micro-operation does the same on all ports: `MicroTo.tick` for ports that need not be the next ones. -/
theorem MicroTo.onPorts {s s' : State} (h : MicroTo s s') (host : List Pins) (rsp : Option Byte) :
    MicroTo (s.onPorts host rsp) (s'.onPorts host rsp) := by
  obtain ⟨pad, t0, own⟩ | ⟨load, t0, rfl⟩ | ⟨expand, range, rfl⟩ | ⟨initv, t0, rfl⟩ | ⟨round, rfl⟩ |
    ⟨fold, t0, rfl⟩ := h.cases
  · obtain ⟨b, ok, byte, rfl⟩ := padbBody_next own
    exact microTo_padb pad t0 (padbBody_of_padByte (s := s.onPorts host rsp) byte ok)
  · exact microTo_loadWords (s := s.onPorts host rsp) load t0
  · exact microTo_expandWord (s := s.onPorts host rsp) expand range
  · exact microTo_loadWorking (s := s.onPorts host rsp) initv t0
  · exact microTo_roundAt (s := s.onPorts host rsp) round
  · exact microTo_foldBack (s := s.onPorts host rsp) fold t0

/-- Settles O10: the micro-operation runs as well on the ports without the command. -/
theorem heldCommandChangesNothing : Obligations.HeldCommandChangesNothing := by
  intro s s' rst valid busy h
  have micro := microTo_of_step rst busy h
  have kept : s.advance.host = s.host := by simp [State.holds, rst, valid, busy]
  have ⟨noResponse, _⟩ := onlyAcceptedCommandsRespond s s' h
  have quiet : MicroTo { s with host := quietPins :: s.host.tail } _ :=
    micro.onPorts (quietPins :: s.host.tail) s.rsp
  exact ⟨micro.host_eq.trans kept, noResponse (.inr (.inl busy)), _, quiet.step_eq_of_rst rfl,
    sameRegisters_onPorts s' _ _⟩

/-! ### The transition table (R119) -/

/-- The table has FAULT for a command that is not legal in the phase, and for a reserved word. -/
theorem tablePhase_of_illegal {s : State} (rst : s.pins.rst = false) (valid : s.pins.cmdValid = true)
    (ready : s.cmdReady = true) (illegal : ∀ i, decodeCmd s.pins.cmd = .instr i → legalIn i s.phase = false) :
    tablePhase s = some .fault := by
  have impossible {i : Instr} (command : decodeCmd s.pins.cmd = .instr i) (legal : legalIn i s.phase = true) :
      False := by
    rw [illegal i command] at legal
    cases legal
  obtain p | p | p | p := (cmdReady_iff s).mp ready <;>
    simp only [tablePhase, rst, valid, p, Bool.false_eq_true, Bool.true_eq_false, if_false]
  case inl =>
    split
    · next start => exact (impossible start (by rw [p]; rfl)).elim
    · next nop => exact (impossible nop (by rw [p]; rfl)).elim
    · rfl
  case inr.inl =>
    split
    · next nop => exact (impossible nop (by rw [p]; rfl)).elim
    · next start => exact (impossible start (by rw [p]; rfl)).elim
    · next data => exact (impossible data (by rw [p]; rfl)).elim
    · next finish => exact (impossible finish (by rw [p]; rfl)).elim
    · rfl
  case inr.inr.inl =>
    split
    · next nop => exact (impossible nop (by rw [p]; rfl)).elim
    · next rdhex => exact (impossible rdhex (by rw [p]; rfl)).elim
    · next start => exact (impossible start (by rw [p]; rfl)).elim
    · rfl

theorem rejectCommand_phase {s : State} (ready : s.cmdReady = true) (x : CmdWord) :
    (rejectCommand x s).phase = .fault := by
  obtain ⟨busy, -⟩ | ⟨fault, h⟩ | ⟨-, -, h⟩ := rejectCommand_cases x s
  · simp [busy] at ready
  · rw [h]; exact fault
  · rw [h]; rfl

/-- An answered command that is not legal in the phase leaves FAULT. -/
theorem phase_of_illegal {s t : State} {i : Instr} {x : CmdWord} (format : encode i = .cmd x)
    (ready : s.cmdReady = true) (illegal : legalIn i s.phase = false) (h : exec i s = .next t) :
    t.phase = .fault := by
  by_cases fault : s.phase = .fault
  · cases (exec_command_of_fault format fault).symm.trans h
    exact fault
  · have ready' : s.phase = .idle ∨ s.phase = .absorb ∨ s.phase = .done := by
      simpa [fault] using (cmdReady_iff s).mp ready
    cases (exec_command_of_illegal format ready' illegal).symm.trans h
    rfl

/-- The rows of R119 for a byte appended in phase `p`. -/
theorem appendRow {fill : BitVec 7} (ok : fill.toNat < 64) (p : Phase) :
    (if fill.toNat < 63 then some p else if fill.toNat = 63 then some .load else none) =
      some (phaseAfterAppend fill p) := by
  obtain ⟨last, next⟩ | ⟨notLast, next⟩ := phaseAfterAppend_cases fill p
  · simp [last, next]
  · rw [next, if_pos (by omega)]

/-- The rows of R119 for an index that a micro-operation advances, from a phase `p` to `q` after the last. -/
theorem indexRow (t : BitVec 6) (p q : Phase) :
    (if t.toNat < 63 then some p else some q) = some (if t = 63 then q else p) := by
  by_cases last : t = 63
  · simp [last]
  · rw [if_neg last, if_pos (by bv_omega)]

/-- The rows of R119 for FOLD are the choice of R108. -/
theorem foldRow (fin : Bool) (padi : BitVec 7) (len : BitVec 64) :
    (if fin = false then some .absorb else if padi.toNat < padN len then some .pad else some .done) =
      some (phaseAfterFold fin padi len) := by
  rw [phaseAfterFold, apply_ite some, apply_ite some]

theorem tablePhase_of_command {s t : State} {i : Instr} (rst : s.pins.rst = false)
    (valid : s.pins.cmdValid = true) (ready : s.cmdReady = true) (command : decodeCmd s.pins.cmd = .instr i)
    (h : exec i s.advance = .next t) : tablePhase s = some t.phase := by
  cases legal : legalIn i s.phase
  case false =>
    rw [phase_of_illegal (decodeCmd_eq_instr_iff.mp command) (s := s.advance) ready legal h]
    refine tablePhase_of_illegal rst valid ready fun j command' => ?_
    cases command.symm.trans command'
    exact legal
  obtain rfl | rfl | ⟨b, rfl⟩ | rfl | ⟨k, rfl⟩ := decodeCmd_instr command
  · have ready' := legalIn_nop.mp legal
    cases (exec_nop_of_ready (s := s.advance) ready').symm.trans h
    obtain p | p | p := ready' <;> simp [tablePhase, rst, valid, command, p]
  · have ready' := legalIn_start.mp legal
    cases (exec_start_of_ready (s := s.advance) ready').symm.trans h
    obtain p | p | p := ready' <;> simp [tablePhase, rst, valid, command, p]
  · have absorb : s.phase = .absorb := legalIn_data.mp legal
    rw [exec_data_of_absorb (s := s.advance) absorb] at h
    obtain ⟨max, fault⟩ | ⟨notMax, ok, next⟩ := phase_of_dataBody h
    · rw [State.advance_len] at max
      simp [tablePhase, rst, valid, command, absorb, max, fault]
    · rw [State.advance_len] at notMax
      rw [next]
      simp only [tablePhase, rst, valid, command, absorb, if_neg notMax, Bool.false_eq_true, Bool.true_eq_false,
        if_false, State.advance_fill, State.advance_phase]
      exact appendRow (fill := s.fill) ok .absorb
  · have absorb := legalIn_finish.mp legal
    cases (exec_finish_of_absorb (s := s.advance) absorb).symm.trans h
    simp [tablePhase, rst, valid, command, absorb]
  · have done := legalIn_rdhex.mp legal
    cases (exec_rdhex_of_done (s := s.advance) done k).symm.trans h
    simp [tablePhase, rst, valid, command, done]

theorem tablePhase_of_microTo {s s' : State} (rst : s.pins.rst = false) (h : MicroTo s.advance s') :
    tablePhase s = some s'.phase := by
  have micro := h.cases
  rw [State.advance_phase] at micro
  obtain ⟨pad, -, own⟩ | ⟨load, -, rfl⟩ | ⟨expand, -, rfl⟩ | ⟨initv, -, rfl⟩ | ⟨round, rfl⟩ | ⟨fold, -, rfl⟩ := micro
  · obtain ⟨b, ok, -, rfl⟩ := padbBody_next own
    simp only [tablePhase, rst, pad, Bool.false_eq_true, if_false, State.advance_phase, State.advance_fill]
    exact appendRow (fill := s.fill) ok .pad
  · simp [tablePhase, rst, load]
  · simp [tablePhase, rst, expand, indexRow]
  · simp [tablePhase, rst, initv]
  · simp [tablePhase, rst, round, indexRow]
  · simp only [tablePhase, rst, fold, Bool.false_eq_true, if_false]
    exact foldRow s.fin s.padi s.len

/-- Settles O12: the rows of the table are the six situations of a state. -/
theorem phaseFollowsTheTransitionTable : Obligations.PhaseFollowsTheTransitionTable := by
  intro s s' h
  obtain ⟨rst, e⟩ | ⟨rst, ready, quiet, e⟩ | ⟨i, rst, ready, valid, command, e⟩ |
    ⟨rst, ready, valid, reserved, e⟩ | ⟨-, rst, busy, -⟩ | ⟨rst, busy, -⟩ := step_situations s
  · cases e.symm.trans h
    simp [tablePhase, rst]
  · cases e.symm.trans h
    obtain p | p | p | p := (cmdReady_iff s).mp ready <;> simp [tablePhase, rst, quiet, p]
  · exact tablePhase_of_command rst valid ready command (e.symm.trans h)
  · cases e.symm.trans h
    rw [tablePhase_of_illegal rst valid ready (by simp [reserved]), rejectCommand_phase (s := s.advance) ready]
  · exact tablePhase_of_microTo rst (microTo_of_step rst busy h)
  · exact tablePhase_of_microTo rst (microTo_of_step rst busy h)

end Sys2Proof.Machine
end

section
/-!
PROOFS. The bound on busy runs: the micro-operations left are a number that each of them lowers by one
(spec/42_padding.md R97; spec/45_pipeline.md R120).
-/

namespace Sys2Proof.Machine

/-- The pad bytes still to be appended, once FINISH was accepted. -/
def State.padsLeft (s : State) : Nat := if s.fin = false then 0 else padN s.len - s.padi.toNat

/-- The steps after the next fold: the pad bytes left, and the blocks they fill. -/
def State.stepsAfterFold (s : State) : Nat := s.padsLeft + 115 * (s.padsLeft / 64)

/-- The steps until the core is ready again, phase by phase. -/
def State.stepsLeft (s : State) : Nat :=
  match s.phase with
  | .pad => s.padsLeft + 115 * ((s.fill.toNat + s.padsLeft) / 64)
  | .load => 115 + s.stepsAfterFold
  | .expand => 130 - s.t.toNat + s.stepsAfterFold
  | .initv => 66 + s.stepsAfterFold
  | .round => 65 - s.t.toNat + s.stepsAfterFold
  | .fold => 1 + s.stepsAfterFold
  | .idle | .absorb | .done | .fault => 0

theorem stepsLeft_of_ready {s : State} (ready : s.cmdReady = true) : s.stepsLeft = 0 := by
  obtain p | p | p | p := (cmdReady_iff s).mp ready <;> simp [State.stepsLeft, p]

theorem toNat_succ_of_ne_last {t : BitVec 6} (notLast : t ≠ 63) : (t + 1).toNat = t.toNat + 1 := by
  bv_omega

theorem stepsLeft_of_padb {s s' : State} (pad : s.phase = .pad) (inv : s.Inv) (own : padbBody s = .next s') :
    s.stepsLeft = s'.stepsLeft + 1 := by
  simp only [State.Inv, pad] at inv
  obtain ⟨-, -, fin, more, -, -⟩ := inv
  obtain ⟨b, ok, -, rfl⟩ := padbBody_next own
  have bound := padN_le s.len
  have padi' : (s.padi + 1).toNat = s.padi.toNat + 1 := by
    rw [BitVec.toNat_add]
    exact Nat.mod_eq_of_lt (by omega : s.padi.toNat + 1 < 2 ^ 7)
  have fill' : (s.fill + 1).toNat = s.fill.toNat + 1 := by bv_omega
  obtain ⟨last, next⟩ | ⟨notLast, next⟩ := phaseAfterAppend_cases s.fill .pad
  · simp only [State.stepsLeft, State.stepsAfterFold, State.padsLeft, pad, next, fin, padi', Bool.true_eq_false, if_false]
    omega
  · simp only [State.stepsLeft, State.padsLeft, pad, next, fin, padi', fill', Bool.true_eq_false, if_false]
    omega

theorem stepsLeft_expandWord {s : State} (expand : s.phase = .expand) :
    s.stepsLeft = (s.expandWord s.t).stepsLeft + 1 := by
  have after : (s.expandWord s.t).stepsAfterFold = s.stepsAfterFold := rfl
  simp only [State.stepsLeft, expand, State.expandWord_phase, State.expandWord_t, after]
  by_cases last : s.t = 63
  · have t63 : s.t.toNat = 63 := congrArg BitVec.toNat last
    simp only [if_pos last]
    omega
  · have next := toNat_succ_of_ne_last last
    simp only [if_neg last]
    omega

theorem stepsLeft_roundAt {s : State} (round : s.phase = .round) :
    s.stepsLeft = (s.roundAt s.t).stepsLeft + 1 := by
  have after : (s.roundAt s.t).stepsAfterFold = s.stepsAfterFold := rfl
  simp only [State.stepsLeft, round, State.roundAt_phase, State.roundAt_t, after]
  by_cases last : s.t = 63
  · have t63 : s.t.toNat = 63 := congrArg BitVec.toNat last
    simp only [if_pos last]
    omega
  · have next := toNat_succ_of_ne_last last
    simp only [if_neg last]
    omega

theorem stepsLeft_foldBack {s : State} (fold : s.phase = .fold) : s.stepsLeft = s.foldBack.stepsLeft + 1 := by
  simp only [State.stepsLeft, fold, State.foldBack_phase, phaseAfterFold]
  cases fin : s.fin
  case false => simp [State.stepsAfterFold, State.padsLeft, fin]
  case true =>
    by_cases more : s.padi.toNat < padN s.len
    · have empty : s.foldBack.fill.toNat = 0 := rfl
      have pads : s.foldBack.padsLeft = s.padsLeft := rfl
      simp only [more, empty, pads, State.stepsAfterFold, Bool.true_eq_false, if_true, if_false]
      omega
    · simp only [State.stepsAfterFold, State.padsLeft, fin, more, Bool.true_eq_false, if_false]
      omega

/-- Every micro-operation lowers the steps left by one. -/
theorem MicroTo.stepsLeft_eq {s s' : State} (h : MicroTo s s') (inv : s.Inv) : s.stepsLeft = s'.stepsLeft + 1 := by
  obtain ⟨pad, -, own⟩ | ⟨load, -, rfl⟩ | ⟨expand, range, rfl⟩ | ⟨initv, t0, rfl⟩ | ⟨round, rfl⟩ | ⟨fold, -, rfl⟩ :=
    h.cases
  · exact stepsLeft_of_padb pad inv own
  · simp only [State.stepsLeft, load, State.loadWords_phase, State.loadWords_t]
    change 115 + s.stepsAfterFold = 130 - 16 + s.stepsAfterFold + 1
    omega
  · exact stepsLeft_expandWord expand
  · simp only [State.stepsLeft, initv, State.loadWorking_phase, State.loadWorking_t, t0]
    change 66 + s.stepsAfterFold = 65 - 0 + s.stepsAfterFold + 1
    omega
  · exact stepsLeft_roundAt round
  · exact stepsLeft_foldBack fold

theorem stepsLeft_le {s : State} (inv : s.Inv) : s.stepsLeft ≤ 302 := by
  have pads : s.padsLeft ≤ 72 := by
    have bound := padN_le s.len
    unfold State.padsLeft
    split <;> omega
  unfold State.Inv at inv
  unfold State.stepsLeft State.stepsAfterFold
  cases p : s.phase <;> simp only [p] at inv ⊢ <;> omega

/-- A busy core of the invariant performs a micro-operation. -/
theorem exists_microTo {s : State} (inv : s.Inv) (busy : s.cmdReady = false) : ∃ s', MicroTo s s' ∧ s'.Inv := by
  obtain ⟨i, selected⟩ := inv_selects inv busy
  obtain ⟨s', own, inv'⟩ := exec_selected_answersInv selected inv
  exact ⟨s', ⟨i, selected, own⟩, inv'⟩

/-- The core is ready when no steps are left. -/
theorem micros_until_ready {n : Nat} {s : State} (inv : s.Inv) (left : s.stepsLeft = n) :
    ∃ d, Micros n s d ∧ d.cmdReady = true := by
  induction n generalizing s with
  | zero =>
    cases ready : s.cmdReady with
    | true => exact ⟨s, .nil s, ready⟩
    | false =>
      obtain ⟨s', first, -⟩ := exists_microTo inv ready
      have lowered := first.stepsLeft_eq inv
      omega
  | succ n ih =>
    have busy : ¬ s.cmdReady = true := fun ready => by simp [stepsLeft_of_ready ready] at left
    obtain ⟨s', first, inv'⟩ := exists_microTo inv (Bool.eq_false_iff.mpr busy)
    have lowered := first.stepsLeft_eq inv
    obtain ⟨d, rest, ready⟩ := ih inv' (by omega)
    exact ⟨d, .cons first rest, ready⟩

/-- Settles O57: from a state of the invariant at most 302 steps are left. -/
theorem everyBusyRunEnds : Obligations.EveryBusyRunEnds := by
  intro s inv _ noReset
  obtain ⟨d, chain, ready⟩ := micros_until_ready inv rfl
  obtain ⟨-, phase, -⟩ := sameRegisters_ticks s.stepsLeft d
  exact ⟨_, stepsLeft_le inv, _, chain.run_eq noReset, (congrArg Phase.ready phase).trans ready⟩

end Sys2Proof.Machine
end

section
/-!
PROOFS. The characters of a digest (spec/45_pipeline.md R112; spec/46_digest.md R124, R126).
-/

namespace Sys2Proof.Machine

/-- The codes of `0` to `9` and of `a` to `f` (R126). -/
def IsHexCode (c : Byte) : Prop := (0x30 ≤ c.toNat ∧ c.toNat ≤ 0x39) ∨ (0x61 ≤ c.toNat ∧ c.toNat ≤ 0x66)

theorem hexLut_isHexCode (n : Fin 16) : IsHexCode hexLut[n.val] := by
  unfold IsHexCode
  revert n
  decide

theorem render_length (s : Vector Word 8) : (render s).length = 64 := by simp [render]

theorem isHexCode_of_mem_render {s : Vector Word 8} {c : Byte} (mem : c ∈ render s) : IsHexCode c := by
  obtain ⟨i, -, rfl⟩ := List.mem_map.mp mem
  exact hexLut_isHexCode (nibbleAt s (BitVec.ofNat 6 i)).toFin

/-- Settles O44: a digest is rendered, and Render takes every character from HEXLUT. -/
theorem digestIsSixtyFourHexDigits : Obligations.DigestIsSixtyFourHexDigits :=
  fun m => ⟨render_length (finalState m), fun _ => isHexCode_of_mem_render⟩

end Sys2Proof.Machine
end

section
/-!
PROOFS. The digest as RDHEX reads it: one character in arithmetic, and the 64 responses in order
(spec/46_digest.md R124, R126 to R128; spec/45_pipeline.md R121).
-/

namespace Sys2Proof.Machine

/-! ### One character -/

theorem toNat_hexLut (v : Fin 16) :
    hexLut[v.val].toNat = if v.val < 10 then 0x30 + v.val else 0x61 + (v.val - 10) := by
  revert v
  decide

/-- Settles O45: the entries are computed one by one. -/
theorem hexTableHoldsLowercaseAscii : Obligations.HexTableHoldsLowercaseAscii := ⟨toNat_hexLut, rfl⟩

/-- R124 in arithmetic: the shift is a division and the mask a remainder. -/
theorem toNat_nibbleAt (h : Vector Word 8) (i : BitVec 6) (inside : i.toNat / 8 < 8) :
    (nibbleAt h i).toNat = h[i.toNat / 8].toNat / 2 ^ (28 - 4 * (i.toNat % 8)) % 16 := by
  simp [nibbleAt, Nat.shiftRight_eq_div_pow]

theorem toNat_hexChar (h : Vector Word 8) (i : BitVec 6) :
    (hexChar h i).toNat =
      if (nibbleAt h i).toNat < 10 then 0x30 + (nibbleAt h i).toNat else 0x61 + ((nibbleAt h i).toNat - 10) :=
  toNat_hexLut (nibbleAt h i).toFin

/-! ### RDHEX -/

/-- R64: opcode 4 with an index above 63 has no row. -/
theorem decodeCmd_reserved_of_indexAbove63 {c : CmdWord} (op : c &&& 0xF00 = 0x400) (above : c &&& 0x0C0 ≠ 0) :
    decodeCmd c = .rejected .reservedCommand := by
  have otherOp {d : CmdWord} (other : d &&& 0xF00 ≠ 0x400) : c ≠ d := fun word => other (word ▸ op)
  refine decodeCmd_reserved_iff.mpr ⟨otherOp (by decide), otherOp (by decide), fun data => ?data,
    otherOp (by decide), fun rdhex => above ?rdhex⟩
  case data => exact absurd (op.symm.trans (and_opMask_iff.mpr data)) (by decide)
  case rdhex =>
    calc c &&& 0x0C0
      _ = (c &&& 0xFC0) &&& 0x0C0 := (BitVec.and_assoc c 0xFC0 0x0C0).symm
      _ = 0x400 &&& 0x0C0 := by rw [and_rdhexMask_iff.mpr rdhex]
      _ = 0 := rfl

/-- Settles O18: in DONE the response is the character, which is its nibble's code; the other clauses are the
frame of a command step. -/
theorem rdhexReturnsOneDigit : Obligations.RdhexReturnsOneDigit := by
  refine ⟨fun c => decodeCmd_reserved_of_indexAbove63, fun s i inside => ⟨rfl, fun done => ?_,
    fun elsewhere => exec_rdhex_of_notDone elsewhere i, exec_command_of_fault rfl, exec_command_of_busy rfl⟩⟩
  refine ⟨hexChar s.h i, exec_rdhex_of_done done i, ?_⟩
  rw [toNat_hexChar, toNat_nibbleAt s.h i inside]

/-- Settles O55: the host is at RDHEX `k` after `k` steps that changed no register. -/
theorem readingTheDigestReturnsItsCharacters : Obligations.ReadingTheDigestReturnsItsCharacters :=
  fun _ _ done host _ => readDigest_responses done host

end Sys2Proof.Machine
end

section
/-!
PROOFS. Faults: which one an accepted command raises, what entering FAULT writes, and that only reset leaves it
(spec/60_exceptions.md R131 to R134).
-/

namespace Sys2Proof.Machine

/-! ### The fault an accepted command raises -/

theorem step_of_command {s : State} {i : Instr} (rst : s.pins.rst = false) (valid : s.pins.cmdValid = true)
    (ready : s.cmdReady = true) (command : decodeCmd s.pins.cmd = .instr i) : step s = exec i s.advance :=
  step_of_performed (nextAction_perform.mpr ⟨rst, .inl ⟨ready, valid, command⟩⟩)

theorem exec_data_of_maxLen {s : State} {b : Byte} {x : CmdWord} (format : encode (.data b) = .cmd x)
    (absorb : s.phase = .absorb) (max : s.len.toNat = 2 ^ 64 - 8) :
    exec (.data b) s = .next (raiseFault .lengthOverflow x s) := by
  cases format
  rw [exec_data_of_absorb absorb, dataBody_of_maxLen max]

/-- Settles O20: the encoding of the decoded command is the word on the pins. -/
theorem faultCauseByPriority : Obligations.FaultCauseByPriority := by
  intro s rst valid accepting
  have ready := cmdReady_of_ready accepting
  have wrongPhase {i : Instr} (command : decodeCmd s.pins.cmd = .instr i) (illegal : legalIn i s.phase = false) :
      step s = .next (raiseFault .wrongPhase s.pins.cmd s.advance) :=
    (step_of_command rst valid ready command).trans
      (exec_command_of_illegal (s := s.advance) (decodeCmd_eq_instr_iff.mp command) accepting illegal)
  refine ⟨fun reserved => ?illegalCommand, fun i command dataOrFinish notAbsorb => wrongPhase command ?illegal,
    fun k command notDone => wrongPhase command (Bool.eq_false_iff.mpr (mt legalIn_rdhex.mp notDone)),
    fun b command absorb max => ?lengthOverflow⟩
  case illegalCommand =>
    rw [step_of_reserved rst ready valid reserved,
      rejectCommand_of_ready (s := s.advance) ready (not_fault_of_ready accepting)]
  case illegal =>
    obtain ⟨b, rfl⟩ | rfl := dataOrFinish
    · exact Bool.eq_false_iff.mpr (mt legalIn_data.mp notAbsorb)
    · exact Bool.eq_false_iff.mpr (mt legalIn_finish.mp notAbsorb)
  case lengthOverflow =>
    rw [step_of_command rst valid ready command]
    exact exec_data_of_maxLen (s := s.advance) (decodeCmd_eq_instr_iff.mp command) absorb max

/-! ### Fault entry -/

theorem phaseAfterAppend_ne_fault {p : Phase} (noFault : p ≠ .fault) (fill : BitVec 7) :
    phaseAfterAppend fill p ≠ .fault := by
  obtain ⟨-, next⟩ | ⟨-, next⟩ := phaseAfterAppend_cases fill p <;> simp [next, noFault]

theorem phaseAfterFold_ne_fault (fin : Bool) (padi : BitVec 7) (len : BitVec 64) :
    phaseAfterFold fin padi len ≠ .fault := by
  unfold phaseAfterFold
  split
  · decide
  · split <;> decide

/-- A command where R114 says "ok" enters FAULT only at the length limit (R117). -/
theorem lengthOverflow_of_legal {i : Instr} {x : CmdWord} {s t : State} (format : encode i = .cmd x)
    (legal : legalIn i s.phase = true) (h : exec i s = .next t) (entered : t.phase = .fault) :
    t = raiseFault .lengthOverflow x s := by
  have accepting := phase_of_legalIn legal
  have noFault := not_fault_of_legalIn legal
  obtain rfl | rfl | ⟨b, rfl⟩ | rfl | ⟨k, rfl⟩ := decodeCmd_instr (decodeCmd_of_encode format)
  · cases (exec_nop_of_ready accepting).symm.trans h
    exact absurd entered noFault
  · cases (exec_start_of_ready accepting).symm.trans h
    cases entered
  · have absorb := legalIn_data.mp legal
    obtain ⟨max, -⟩ | ⟨-, -, next⟩ := phase_of_dataBody ((exec_data_of_absorb absorb b).symm.trans h)
    · cases (exec_data_of_maxLen format absorb max).symm.trans h
      rfl
    · exact absurd (next.symm.trans entered) (phaseAfterAppend_ne_fault noFault s.fill)
  · cases (exec_finish_of_absorb (legalIn_finish.mp legal)).symm.trans h
    cases entered
  · cases (exec_rdhex_of_done (legalIn_rdhex.mp legal) k).symm.trans h
    exact absurd entered noFault

theorem raiseFault_of_command {i : Instr} {x : CmdWord} {s t : State} (format : encode i = .cmd x)
    (accepting : s.phase = .idle ∨ s.phase = .absorb ∨ s.phase = .done) (h : exec i s = .next t)
    (entered : t.phase = .fault) : ∃ c, c ≠ .noFault ∧ t = raiseFault c x s := by
  cases legal : legalIn i s.phase with
  | true => exact ⟨.lengthOverflow, by decide, lengthOverflow_of_legal format legal h entered⟩
  | false =>
    cases (exec_command_of_illegal format accepting legal).symm.trans h
    exact ⟨.wrongPhase, by decide, rfl⟩

/-- No micro-operation raises a fault (R131). -/
theorem MicroTo.phase_ne_fault {s s' : State} (h : MicroTo s s') : s'.phase ≠ .fault := by
  obtain ⟨pad, -, own⟩ | ⟨-, -, rfl⟩ | ⟨expand, -, rfl⟩ | ⟨-, -, rfl⟩ | ⟨round, rfl⟩ | ⟨-, -, rfl⟩ := h.cases
  · obtain ⟨b, ok, -, rfl⟩ := padbBody_next own
    exact phaseAfterAppend_ne_fault (by simp [pad]) s.fill
  · simp
  · rw [State.expandWord_phase, expand]
    split <;> decide
  · simp
  · rw [State.roundAt_phase, round]
    split <;> decide
  · exact phaseAfterFold_ne_fault s.fin s.padi s.len

/-- A step into FAULT is fault entry with the accepted word (R131, R133). -/
theorem raiseFault_of_step {s s' : State} (noFault : s.phase ≠ .fault) (h : step s = .next s')
    (entered : s'.phase = .fault) :
    s.pins.rst = false ∧ s.pins.cmdValid = true ∧ (s.phase = .idle ∨ s.phase = .absorb ∨ s.phase = .done) ∧
    ∃ c, c ≠ .noFault ∧ s' = raiseFault c s.pins.cmd s.advance := by
  have accepting (ready : s.cmdReady = true) : s.phase = .idle ∨ s.phase = .absorb ∨ s.phase = .done := by
    simpa [noFault] using (cmdReady_iff s).mp ready
  obtain ⟨-, e⟩ | ⟨-, -, -, e⟩ | ⟨i, rst, ready, valid, command, e⟩ | ⟨rst, ready, valid, -, e⟩ |
    ⟨-, rst, busy, -⟩ | ⟨rst, busy, -⟩ := step_situations s
  · cases e.symm.trans h
    cases entered
  · cases e.symm.trans h
    exact absurd entered noFault
  · exact ⟨rst, valid, accepting ready, raiseFault_of_command (s := s.advance) (decodeCmd_eq_instr_iff.mp command)
      (accepting ready) (e.symm.trans h) entered⟩
  · cases e.symm.trans h
    exact ⟨rst, valid, accepting ready, .illegalCommand, by decide,
      rejectCommand_of_ready (s := s.advance) ready noFault s.pins.cmd⟩
  · exact absurd entered (microTo_of_step rst busy h).phase_ne_fault
  · exact absurd entered (microTo_of_step rst busy h).phase_ne_fault

theorem status_of_fault {s : State} (fault : s.phase = .fault) : s.status = 0x59 := by
  simp only [State.status, State.cmdReady, fault]
  decide

/-- Settles O21: fault entry leaves the datapath of the state it is entered from. -/
theorem faultEntryIsPrecise : Obligations.FaultEntryIsPrecise := by
  intro s s' noFault h entered
  obtain ⟨rst, valid, accepting, c, isFault, rfl⟩ := raiseFault_of_step noFault h entered
  obtain ⟨datapath, -⟩ := sameRegisters_advance s
  exact ⟨rst, valid, accepting, datapath, isFault, rfl, rfl, rfl, status_of_fault rfl, rfl⟩

/-! ### In FAULT -/

/-- Settles O22: FAULT is a ready phase, so its steps are reset, the quiescent step and an ignored command. -/
theorem faultIsLeftOnlyByReset : Obligations.FaultIsLeftOnlyByReset := by
  intro s fault
  have ready : s.cmdReady = true := (cmdReady_iff s).mpr (.inr (.inr (.inr fault)))
  have same := sameRegisters_advance s
  obtain ⟨rst, e⟩ | ⟨rst, -, quiet, e⟩ | ⟨i, rst, -, valid, command, e⟩ | ⟨rst, -, valid, reserved, e⟩ |
    ⟨-, -, busy, -⟩ | ⟨-, busy, -⟩ := step_situations s
  · exact ⟨_, e, by simp [rst], fun _ => ⟨rfl, rfl, rfl⟩⟩
  · exact ⟨_, e, fun _ => ⟨same, by simp [quiet]⟩, by simp [rst]⟩
  · rw [exec_command_of_fault (s := s.advance) (decodeCmd_eq_instr_iff.mp command) fault] at e
    exact ⟨_, e, fun _ => ⟨same, fun _ => rfl⟩, by simp [rst]⟩
  · rw [rejectCommand_of_fault (s := s.advance) fault] at e
    exact ⟨_, e, fun _ => ⟨same, fun _ => rfl⟩, by simp [rst]⟩
  · simp [busy] at ready
  · simp [busy] at ready

end Sys2Proof.Machine
end
